-- ==== Sys2Proof/Word.lean ====
section
/-! DEFINITION. The plain types the rules speak of: a byte, a 16-bit word, an event text. -/

namespace Sys2Proof

/-- A byte, an unsigned integer 0..255 (rule R10). -/
abbrev Byte := BitVec 8

/-- A 16-bit word: the checksum and the summation words (rules R62, R90). -/
abbrev Word := BitVec 16

/-- An event text: a finite sequence of bytes, no terminator and no newline (rules R13, R28). -/
abbrev Text := List Byte

end Sys2Proof
end

