-- ==== Sys2Proof/Machine/Bytes.lean ====
section
/-! DEFINITION. Reads over a byte sequence (R11, R12): single bytes, big-endian numbers, slices. -/

namespace Sys2Proof.Machine

/-- `s[i]` (R11). R11 requires `i < len(s)`, and every rule that reads tests the length first (R47, R144); beyond the end the
model answers 0, which no decoded frame reaches (log entry 31). -/
def byteAt (s : List Byte) (i : Nat) : Byte := s.getD i 0

/-- `Rd(s, o, 2)` (R12): 16 bits, most significant byte first. -/
def rd16 (s : List Byte) (o : Nat) : Nat :=
  (byteAt s o).toNat * 256 + (byteAt s (o + 1)).toNat

/-- `Rd(s, o, 4)` (R12, R142 `u32be`): 32 bits, most significant byte first. -/
def rd32 (s : List Byte) (o : Nat) : Nat :=
  (((byteAt s o).toNat * 256 + (byteAt s (o + 1)).toNat) * 256 + (byteAt s (o + 2)).toNat) * 256
    + (byteAt s (o + 3)).toNat

/-- `s[a..b)` (R11). -/
def slice (s : List Byte) (a b : Nat) : List Byte := (s.take b).drop a

/-- The high byte of a 16-bit number. -/
def hiByte (v : Nat) : Byte := BitVec.ofNat 8 (v / 256)

/-- The low byte of a number. -/
def loByte (v : Nat) : Byte := BitVec.ofNat 8 v

/-- `hi(b) = b[7:4]` (R10). -/
def hiNibble (b : Byte) : Nat := b.toNat / 16

/-- `lo(b) = b[3:0]` (R10). -/
def loNibble (b : Byte) : Nat := b.toNat % 16

/-- `find(s, v)` (R11): the least offset that holds `v`. -/
def findByte (v : Byte) : List Byte → Option Nat
  | [] => none
  | b :: bs => if b = v then some 0 else (findByte v bs).map (· + 1)

end Sys2Proof.Machine
end

