-- ==== Sys2Proof/Machine/Checksum.lean ====
section
/-! DEFINITION. ChecksumEngine: `compute` (R90 to R95). -/

namespace Sys2Proof.Machine

/-- The exact sum of the big-endian words, an odd trailing byte shifted left 8 bits (R90, R91). -/
def wordSum : List Byte → Nat
  | [] => 0
  | [b] => b.toNat * 256
  | a :: b :: rest => a.toNat * 256 + b.toNat + wordSum rest

/-- The loop `while sum[31:16] != 0: sum <- sum[15:0] + sum[31:16]` (R90), at most `fuel` passes. -/
def foldCarry : Nat → Nat → Nat
  | 0, sum => sum
  | fuel + 1, sum => if sum / 65536 = 0 then sum else foldCarry fuel (sum % 65536 + sum / 65536)

/-- `compute(bytes)` (R90). The sum is kept in 32 bits and wraps (R92, D18); the fold needs two passes at most (R93). -/
def compute (b : List Byte) : Word :=
  BitVec.ofNat 16 (foldCarry 2 (wordSum b % 2 ^ 32)) ^^^ 0xFFFF#16

end Sys2Proof.Machine
end

