-- ==== Sys2Proof/Config.lean ====
section
/-! DEFINITION. The open parameters of rule R7 as plain data, and the one free value (93 U1).
A machine's state carries its parameters (log entry 3), so a statement about every state holds for every choice of them. -/

namespace Sys2Proof

/-- `FILTER_MISS` (R7, D5, U5): what a listed command whose filters fail gives. -/
inductive MissPolicy where
  | rawDump
  | noOutput
deriving DecidableEq, Repr

/-- `CALL06_ORDER` (R7, D8, C6): which identifier row 0x06 prints after "from". -/
inductive CallOrder where
  /-- from = payload 1..4, to = payload 5..8 -/
  | wireOrder
  /-- from = payload 5..8, to = payload 1..4 -/
  | like62
deriving DecidableEq, Repr

/-- `KEY_HEX_SEP` (R7, D9): nothing or one space between the key bytes of row 0x81. -/
inductive KeySep where
  | none
  | space
deriving DecidableEq, Repr

/-- `FW_HEX_WIDTH` (R7, D10): two digits always, or no leading zero, in row 0x25. -/
inductive FwWidth where
  | two
  | min
deriving DecidableEq, Repr

/-- `ALIAS_OTHER` (R7, D12, U2): row 0x60 with an encoding byte of 4 or more. -/
inductive AliasPolicy where
  | emptyText
  | noOutput
  | rawDump
deriving DecidableEq, Repr

/-- `CKSUM_ORDER` (R7, R62, D3, U14): byte order of the carried checksum. -/
inductive ByteOrder where
  | bigEndian
  | littleEndian
deriving DecidableEq, Repr

/-- The open parameters of rule R7, fixed for the life of a model instance (R30). -/
structure Params where
  /-- `DIR_TOHOST`: the direction byte that means ToHost. -/
  dirToHost : Byte
  /-- `DIR_UPLOAD`: the direction byte that means Upload. -/
  dirUpload : Byte
  filterMiss : MissPolicy
  call06Order : CallOrder
  keyHexSep : KeySep
  fwHexWidth : FwWidth
  aliasOther : AliasPolicy
  cksumOrder : ByteOrder
deriving DecidableEq, Repr

/-- R7's constraint column: each code is not 0x01 (`DIR_TODEVICE`), and the two differ. -/
abbrev Params.WF (p : Params) : Prop :=
  p.dirToHost ≠ 0x01#8 ∧ p.dirUpload ≠ 0x01#8 ∧ p.dirToHost ≠ p.dirUpload

/-- The event of `CHANNEL_STATE` with an empty payload (R175, 93 U1): any value of type `Option<string>`, an uninterpreted
function of the frame's bytes. No body: no proof can see what it is (log entry 11). -/
opaque Config.unspecifiedEvent : List Byte → Option Text

end Sys2Proof
end

