-- ==== Sys2Proof/Machine/Constants.lean ====
section
/-! DEFINITION. The hard-wired constants of rules R6 and R30, and the spec's default for each open parameter (R7). -/

namespace Sys2Proof.Machine

/-- `HEAD` (R6, R60): the head sentinel at frame offset 0. -/
def headByte : Byte := 0x68#8

/-- `TAIL` (R6, R60): the tail sentinel at frame offset 8 + N. -/
def tailByte : Byte := 0x10#8

/-- `HEADER_SIZE` (R6, C1): bytes before the payload. -/
abbrev headerSize : Nat := 8

/-- `LEN_LIMIT` (R6): a payload length of this or more is structurally invalid. -/
abbrev lenLimit : Nat := 256

/-- `MIN_FRAME` (R6, R121): the shortest frame and the first threshold of `validate`. -/
abbrev minFrame : Nat := headerSize + 1

/-- `MAX_FRAME` (R6): the longest frame. -/
abbrev maxFrame : Nat := headerSize + (lenLimit - 1) + 1

/-- Each byte of `CKSUM_NEUTRAL` (R6, R94). -/
def neutralByte : Byte := 0xFF#8

/-- `DIR_TODEVICE` (R6, R64). -/
def dirToDevice : Byte := 0x01#8

/-- The defaults for vectors of rule R7: the model's parameters at reset (DESIGN CHOICE, log entries 3 to 10). -/
def defaultParams : Params where
  dirToHost := 0x00#8
  dirUpload := 0x02#8
  filterMiss := .rawDump
  call06Order := .wireOrder
  keyHexSep := .none
  fwHexWidth := .two
  aliasOther := .emptyText
  cksumOrder := .bigEndian

end Sys2Proof.Machine
end

