-- ==== Sys2Proof/Syntax.lean ====
section
/-! DEFINITION. The frame record (R23, R60) and the instructions: one constructor per row of spec/opcode_table.json. -/

namespace Sys2Proof

/-- The frame record of rule R23. The head and the tail are constants of every frame and the length field is the payload's
length, so neither is stored; the two checksum bytes are kept as received (R23, D6). -/
structure Frame where
  /-- frame offset 1 -/
  command : Byte
  /-- frame offset 2; decoded by R64 -/
  direction : Byte
  /-- frame offset 3, `sequenceOrReserved` (R65) -/
  sequence : Byte
  /-- the checksum byte at frame offset 4 -/
  check4 : Byte
  /-- the checksum byte at frame offset 5 -/
  check5 : Byte
  /-- frame offsets 8 .. 8+N-1 -/
  payload : List Byte
deriving DecidableEq, Repr

/-- The rows of the dispatch table (R70, R77), each applied to the frame `f` its rule reads (R135). -/
inductive Instr where
  /-- 0x02, R160 -/
  | setRxVolume (f : Frame)
  /-- 0x05, R161 -/
  | signalCheck (f : Frame)
  /-- 0x06, R162 -/
  | callState (f : Frame)
  /-- 0x09, R163 -/
  | alarm (f : Frame)
  /-- 0x0B, R164 -/
  | setMicGain (f : Frame)
  /-- 0x0C, R165 -/
  | setPowerSave (f : Frame)
  /-- 0x1A, R166 -/
  | initStatus (f : Frame)
  /-- 0x25, R167 -/
  | firmware (f : Frame)
  /-- 0x2A, R168 -/
  | setLocalId (f : Frame)
  /-- 0x3E, R169 -/
  | wakeUp (f : Frame)
  /-- 0x42, R170 -/
  | deepSleep (f : Frame)
  /-- 0x45, R171 -/
  | setAlarmCfg (f : Frame)
  /-- 0x48, R172 -/
  | quiet48 (f : Frame)
  /-- 0x4C, R173 -/
  | quiet4C (f : Frame)
  /-- 0x4D, R174 -/
  | setSquelch (f : Frame)
  /-- 0x59, R175 -/
  | channelState (f : Frame)
  /-- 0x60, R176 -/
  | inBand (f : Frame)
  /-- 0x62, R177 -/
  | detectedCall (f : Frame)
  /-- 0x81, R178 -/
  | setKey (f : Frame)
  /-- 0x82, R179 -/
  | setChannel (f : Frame)
  /-- 0x84, R180 -/
  | setGroupList (f : Frame)
  /-- a listed code whose filters are not met: R71 (3), R139 -/
  | filterMiss (f : Frame)
  /-- every other code: R181 -/
  | rawDump (f : Frame)
deriving DecidableEq, Repr

/-- The frame an instruction is read from. -/
def Instr.frame : Instr → Frame
  | .setRxVolume f => f
  | .signalCheck f => f
  | .callState f => f
  | .alarm f => f
  | .setMicGain f => f
  | .setPowerSave f => f
  | .initStatus f => f
  | .firmware f => f
  | .setLocalId f => f
  | .wakeUp f => f
  | .deepSleep f => f
  | .setAlarmCfg f => f
  | .quiet48 f => f
  | .quiet4C f => f
  | .setSquelch f => f
  | .channelState f => f
  | .inBand f => f
  | .detectedCall f => f
  | .setKey f => f
  | .setChannel f => f
  | .setGroupList f => f
  | .filterMiss f => f
  | .rawDump f => f

end Sys2Proof
end

