-- ==== Sys2Proof/Machine/FrameFormat.lean ====
section
/-! DEFINITION. The one frame format (R60 to R66): a frame record's bytes, its carried checksum, and the `FRAME` of R75. -/

namespace Sys2Proof

/-- `N = payloadLength` (R61, R66). -/
def Frame.len (f : Frame) : Nat := f.payload.length

/-- The bytes of a frame in order, head to tail (R60). -/
def Frame.bytes (f : Frame) : List Byte :=
  [Machine.headByte, f.command, f.direction, f.sequence, f.check4, f.check5,
    Machine.hiByte f.len, Machine.loByte f.len] ++ f.payload ++ [Machine.tailByte]

/-- The private copy `w`: the frame with its checksum field neutralised (R94, R125). -/
def Frame.neutral (f : Frame) : Frame :=
  { f with check4 := Machine.neutralByte, check5 := Machine.neutralByte }

/-- The 16-bit value that two checksum bytes carry, by `CKSUM_ORDER` (R62). -/
def Machine.carriedOf (o : ByteOrder) (b4 b5 : Byte) : Word :=
  match o with
  | .bigEndian => BitVec.ofNat 16 (b4.toNat * 256 + b5.toNat)
  | .littleEndian => BitVec.ofNat 16 (b5.toNat * 256 + b4.toNat)

/-- The carried checksum of a frame (R62). -/
def Frame.carried (o : ByteOrder) (f : Frame) : Word := Machine.carriedOf o f.check4 f.check5

/-- The frame with the checksum field set to `c` (R62). -/
def Frame.withChecksum (o : ByteOrder) (c : Word) (f : Frame) : Frame :=
  match o with
  | .bigEndian => { f with check4 := Machine.hiByte c.toNat, check5 := Machine.loByte c.toNat }
  | .littleEndian => { f with check4 := Machine.loByte c.toNat, check5 := Machine.hiByte c.toNat }

/-- `FRAME(cmd, dir, seq, [payload])` (R75): the frame whose checksum field holds the value a sender must place there (R62). -/
def Machine.frameOf (o : ByteOrder) (cmd dir seq : Byte) (payload : List Byte) : Frame :=
  let f : Frame :=
    { command := cmd, direction := dir, sequence := seq,
      check4 := Machine.neutralByte, check5 := Machine.neutralByte, payload := payload }
  f.withChecksum o (Machine.compute f.bytes)

/-- The frame record read from the bytes of a complete frame (R23, R66). -/
def Machine.parseFrame (b : List Byte) : Frame where
  command := Machine.byteAt b 1
  direction := Machine.byteAt b 2
  sequence := Machine.byteAt b 3
  check4 := Machine.byteAt b 4
  check5 := Machine.byteAt b 5
  payload := Machine.slice b 8 (8 + Machine.rd16 b 6)

end Sys2Proof
end

