-- ==== Sys2Proof/Machine/Text.lean ====
section
/-! DEFINITION. Spelling of numbers and bytes in event texts (R13, R143). -/

namespace Sys2Proof.Machine

/-- A quoted literal: the sequence of its ASCII codes (R13, G4). -/
def ascii (s : String) : Text := s.toList.map (fun c => BitVec.ofNat 8 c.toNat)

/-- The space character 0x20 (R13). -/
def space : Byte := 0x20#8

/-- The digits of `v` put before `acc`; `fuel` bounds how many. -/
def decDigits : Nat → Nat → Text → Text
  | 0, _, acc => acc
  | fuel + 1, v, acc =>
    let acc' := BitVec.ofNat 8 (0x30 + v % 10) :: acc
    if v / 10 = 0 then acc' else decDigits fuel (v / 10) acc'

/-- `dec(v)` (R13): the shortest decimal spelling, no sign and no padding. -/
def dec (v : Nat) : Text := decDigits (v + 1) v []

/-- The uppercase hexadecimal digit of a value below 16 (R13). -/
def hexDigit (v : Nat) : Byte :=
  if v < 10 then BitVec.ofNat 8 (0x30 + v) else BitVec.ofNat 8 (0x41 + (v - 10))

/-- `hex2(b)` (R13). -/
def hex2 (b : Byte) : Text := [hexDigit (hiNibble b), hexDigit (loNibble b)]

/-- Uppercase hexadecimal without a leading zero, "0" for 0 (R167, `FW_HEX_WIDTH = Min`). -/
def hexMin (b : Byte) : Text :=
  if hiNibble b = 0 then [hexDigit (loNibble b)] else hex2 b

/-- `hexcat(s)` (R13). -/
def hexcat (s : List Byte) : Text := s.flatMap hex2

/-- One space and `hex2(b)` for each byte (R176, the "In Band:" dump). -/
def hexEach (s : List Byte) : Text := s.flatMap (fun b => space :: hex2 b)

/-- `hexsp(s)` (R13): `hex2` of each byte joined by one space. -/
def hexsp : List Byte → Text
  | [] => []
  | b :: bs => hex2 b ++ hexEach bs

/-- `utf8(c)` for a code point below 0x10000 (R13; the bit layout PRESUMED, G3, log entry 29). -/
def utf8 (c : Nat) : Text :=
  if c < 0x80 then [BitVec.ofNat 8 c]
  else if c < 0x800 then [BitVec.ofNat 8 (0xC0 + c / 64), BitVec.ofNat 8 (0x80 + c % 64)]
  else [BitVec.ofNat 8 (0xE0 + c / 4096), BitVec.ofNat 8 (0x80 + c / 64 % 64), BitVec.ofNat 8 (0x80 + c % 64)]

end Sys2Proof.Machine
end

