-- ==== Sys2Proof/Machine/Operands.lean ====
section
/-! DEFINITION. Operand forms of the rows: direction and payload fields, and the helpers of 43_interpreter_common.md. -/

namespace Sys2Proof

/-- What a direction byte means (R64). -/
inductive Direction where
  | toDevice
  | toHost
  | upload
  | other (b : Byte)
deriving DecidableEq, Repr

/-- Decoding of the direction byte (R64, D4). -/
def Machine.decodeDirection (p : Params) (b : Byte) : Direction :=
  if b = Machine.dirToDevice then .toDevice
  else if b = p.dirToHost then .toHost
  else if b = p.dirUpload then .upload
  else .other b

/-- `isToDevice(f)` (R136). -/
def Frame.isToDevice (f : Frame) : Bool := f.direction == Machine.dirToDevice

/-- `isToHost(f)` (R136). -/
def Frame.isToHost (p : Params) (f : Frame) : Bool := f.direction == p.dirToHost

/-- `isUpload(f)` (R136). -/
def Frame.isUpload (p : Params) (f : Frame) : Bool := f.direction == p.dirUpload

/-- `p[i]`, a payload byte (R66); a row reads it only when `i < N` (R144). -/
def Frame.pay (f : Frame) (i : Nat) : Byte := Machine.byteAt f.payload i

/-- `p[i]` as a number. -/
def Frame.payNat (f : Frame) (i : Nat) : Nat := (f.pay i).toNat

/-- `p[a..b)` (R66). -/
def Frame.paySlice (f : Frame) (a b : Nat) : List Byte := Machine.slice f.payload a b

/-- `f[7]`, the length field's low byte (R137, R162). -/
def Frame.lenLow (f : Frame) : Nat := (Machine.loByte f.len).toNat

namespace Machine

/-- `dump(f)` (R138): `hexsp(f[1 .. 8+N))`, command to end of payload, the checksum bytes as received. -/
def dump (f : Frame) : Option Text := some (hexsp (slice f.bytes 1 (8 + f.len)))

/-- `miss(f)` (R139), by `FILTER_MISS`. -/
def miss (p : Params) (f : Frame) : Option Text :=
  match p.filterMiss with
  | .rawDump => dump f
  | .noOutput => none

/-- `decodeBcdId` (R140) over the bytes given, first byte most significant. -/
def decodeBcdId (bs : List Byte) : Nat :=
  bs.foldl (fun v b => v * 100 + (hiNibble b * 10 + loNibble b)) 0

/-- `callLabel(b)` (R141). -/
def callLabel (b : Byte) : Text :=
  if b = 1#8 then ascii "Private" else if b = 2#8 then ascii "Group" else ascii "All"

/-- `h(b)` of row 0x25, by `FW_HEX_WIDTH` (R167). -/
def fwHex (p : Params) (b : Byte) : Text :=
  match p.fwHexWidth with
  | .two => hex2 b
  | .min => hexMin b

/-- `hk(s)` of row 0x81, by `KEY_HEX_SEP` (R178). -/
def keyHex (p : Params) (s : List Byte) : Text :=
  match p.keyHexSep with
  | .none => hexcat s
  | .space => hexsp s

/-- `key(L) = p[2 .. 2 + min(L, N - 2))` (R178). -/
def keyBytes (f : Frame) (keyLength : Nat) : List Byte :=
  f.paySlice 2 (2 + min keyLength (f.len - 2))

end Machine

end Sys2Proof
end

