-- ==== Sys2Proof/Machine/Validator.lean ====
section
/-! DEFINITION. FrameValidator: `validate` (R120 to R131). -/

namespace Sys2Proof.Machine

/-- The ghost cause of `Invalid` (R27, D20); not observable at the interface. -/
inductive Cause where
  /-- R122 -/
  | len
  /-- R124, standalone use only (D19) -/
  | head
  /-- R124 -/
  | tail
  /-- R126 -/
  | cksum
deriving DecidableEq, Repr

/-- The verdict of `validate` (R26, R120). -/
inductive Verdict where
  | incomplete
  | invalid (cause : Cause)
  | valid (f : Frame) (consumedLength : Nat)
deriving DecidableEq, Repr

/-- The private copy `w` of the first `frameLength` bytes, checksum field neutralised (R125). -/
def neutralCopy (b : List Byte) : List Byte := (b.set 4 neutralByte).set 5 neutralByte

/-- `validate(buf)` (R128); the order of the tests is normative (R120, R199). -/
def validate (o : ByteOrder) (buf : List Byte) : Verdict :=
  if buf.length < minFrame then .incomplete
  else
    let N := rd16 buf 6
    if lenLimit ≤ N then .invalid .len
    else
      let L := headerSize + N + 1
      if buf.length < L then .incomplete
      else if byteAt buf 0 ≠ headByte then .invalid .head
      else if byteAt buf (L - 1) ≠ tailByte then .invalid .tail
      else if compute (neutralCopy (buf.take L)) ≠ carriedOf o (byteAt buf 4) (byteAt buf 5) then
        .invalid .cksum
      else .valid (parseFrame (buf.take L)) L

end Sys2Proof.Machine
end

