-- ==== Sys2Proof/WellFormed.lean ====
section
/-! DEFINITION. When an instruction is one a valid frame gives: the frame invariant (R24) and the row's own code and filters
(R70), written out row by row and not through the decoder's table. -/

namespace Sys2Proof

/-- The frame invariant of R24 on a frame record: head, tail and size hold by its form; the payload is below 256 bytes and
the recomputed checksum equals the carried one. -/
def Frame.ok (o : ByteOrder) (f : Frame) : Bool :=
  decide (f.len < Machine.lenLimit) && Machine.compute f.neutral.bytes == f.carried o

/-- The code and the filters of each listed row (R70; rows 0x06 and 0x84 filter on direction only, C7). -/
def Instr.ownRow (p : Params) : Instr → Bool
  | .setRxVolume f => f.command == 0x02#8 && f.isToDevice && f.len == 1
  | .signalCheck f => f.command == 0x05#8
  | .callState f => f.command == 0x06#8 && f.isUpload p
  | .alarm f => f.command == 0x09#8
  | .setMicGain f => f.command == 0x0B#8 && f.isToDevice && f.len == 1
  | .setPowerSave f => f.command == 0x0C#8 && f.isToDevice && f.len == 1
  | .initStatus f => f.command == 0x1A#8
  | .firmware f => f.command == 0x25#8 && f.isToHost p && f.len == 4
  | .setLocalId f => f.command == 0x2A#8 && f.isToDevice && f.len == 4
  | .wakeUp f => f.command == 0x3E#8 && f.isToDevice
  | .deepSleep f => f.command == 0x42#8
  | .setAlarmCfg f => f.command == 0x45#8
  | .quiet48 f => f.command == 0x48#8
  | .quiet4C f => f.command == 0x4C#8
  | .setSquelch f => f.command == 0x4D#8 && f.isToDevice && f.len == 1
  | .channelState f => f.command == 0x59#8 && f.isUpload p
  | .inBand f => f.command == 0x60#8 && f.len == 34
  | .detectedCall f => f.command == 0x62#8 && f.len == 10
  | .setKey f => f.command == 0x81#8 && f.isToDevice && decide (7 ≤ f.len)
  | .setChannel f => f.command == 0x82#8 && f.isToDevice && f.len == 20
  | .setGroupList f => f.command == 0x84#8 && f.isToDevice
  | .filterMiss _ => false
  | .rawDump _ => false

/-- The 21 listed command codes (R70). -/
def listedCodes : List Byte :=
  [0x02#8, 0x05#8, 0x06#8, 0x09#8, 0x0B#8, 0x0C#8, 0x1A#8, 0x25#8, 0x2A#8, 0x3E#8, 0x42#8]
    ++ [0x45#8, 0x48#8, 0x4C#8, 0x4D#8, 0x59#8, 0x60#8, 0x62#8, 0x81#8, 0x82#8, 0x84#8]

/-- The 21 listed rows applied to one frame. -/
def listedRows (f : Frame) : List Instr :=
  [.setRxVolume f, .signalCheck f, .callState f, .alarm f, .setMicGain f, .setPowerSave f, .initStatus f]
    ++ [.firmware f, .setLocalId f, .wakeUp f, .deepSleep f, .setAlarmCfg f, .quiet48 f, .quiet4C f]
    ++ [.setSquelch f, .channelState f, .inBand f, .detectedCall f, .setKey f, .setChannel f, .setGroupList f]

/-- The row condition of an instruction (R71): its own row; or a listed code none of whose row's filters hold
(`FILTER_MISS`); or an unlisted code (`RAW_DUMP`). -/
def Instr.rowOk (p : Params) : Instr → Bool
  | .filterMiss f => listedCodes.contains f.command && !(listedRows f).any (Instr.ownRow p)
  | .rawDump f => !listedCodes.contains f.command
  | i => i.ownRow p

/-- An instruction that some valid frame gives, under the parameters `p`. -/
def WellFormed (p : Params) (i : Instr) : Bool := i.frame.ok p.cksumOrder && i.rowOk p

end Sys2Proof
end

