-- ==== Sys2Proof/Decode.lean ====
section
/-! DEFINITION. From bytes to an instruction: the opcode map as a list of rows (R70, R77), row selection (R71), the decoder, the
encoder, and the word interface of spec/opcode_table.json. -/

namespace Sys2Proof

/-- The direction column of the opcode map (R70); `any` is the table's "—". -/
inductive DirFilter where
  | any
  | toDevice
  | toHost
  | upload
deriving DecidableEq, Repr

/-- The length column where it filters (R70, R137). -/
inductive LenFilter where
  | any
  | exactly (n : Nat)
  | atLeast (n : Nat)
deriving DecidableEq, Repr

/-- One row of the opcode map. -/
structure OpcodeRow where
  code : Byte
  direction : DirFilter
  length : LenFilter
  instr : Frame → Instr

/-- A direction filter holds (R136). -/
def dirHolds (p : Params) (d : DirFilter) (f : Frame) : Bool :=
  match d with
  | .any => true
  | .toDevice => f.isToDevice
  | .toHost => f.isToHost p
  | .upload => f.isUpload p

/-- A length filter holds (R137). -/
def lenHolds (l : LenFilter) (f : Frame) : Bool :=
  match l with
  | .any => true
  | .exactly n => f.len == n
  | .atLeast n => decide (n ≤ f.len)

/-- The opcode map (R70), in the table's order. -/
def opcodeMap : List OpcodeRow :=
  [ ⟨0x02#8, .toDevice, .exactly 1, .setRxVolume⟩,
    ⟨0x05#8, .any, .any, .signalCheck⟩,
    ⟨0x06#8, .upload, .any, .callState⟩,
    ⟨0x09#8, .any, .any, .alarm⟩,
    ⟨0x0B#8, .toDevice, .exactly 1, .setMicGain⟩,
    ⟨0x0C#8, .toDevice, .exactly 1, .setPowerSave⟩,
    ⟨0x1A#8, .any, .any, .initStatus⟩,
    ⟨0x25#8, .toHost, .exactly 4, .firmware⟩,
    ⟨0x2A#8, .toDevice, .exactly 4, .setLocalId⟩,
    ⟨0x3E#8, .toDevice, .any, .wakeUp⟩,
    ⟨0x42#8, .any, .any, .deepSleep⟩ ]
  ++
  [ ⟨0x45#8, .any, .any, .setAlarmCfg⟩,
    ⟨0x48#8, .any, .any, .quiet48⟩,
    ⟨0x4C#8, .any, .any, .quiet4C⟩,
    ⟨0x4D#8, .toDevice, .exactly 1, .setSquelch⟩,
    ⟨0x59#8, .upload, .any, .channelState⟩,
    ⟨0x60#8, .any, .exactly 34, .inBand⟩,
    ⟨0x62#8, .any, .exactly 10, .detectedCall⟩,
    ⟨0x81#8, .toDevice, .atLeast 7, .setKey⟩,
    ⟨0x82#8, .toDevice, .exactly 20, .setChannel⟩,
    ⟨0x84#8, .toDevice, .any, .setGroupList⟩ ]

/-- The row whose code is the frame's command, if any. -/
def findRow (cmd : Byte) : Option OpcodeRow := opcodeMap.find? (fun r => r.code == cmd)

/-- Row selection (R71): an unlisted code gives the default row; a listed code whose filters hold its own row; else
`FILTER_MISS`. -/
def select (p : Params) (f : Frame) : Instr :=
  match findRow f.command with
  | none => .rawDump f
  | some r => if dirHolds p r.direction f && lenHolds r.length f then r.instr f else .filterMiss f

/-- Why bytes give no instruction: the non-normal verdicts of `validate` (R190). -/
inductive Reject where
  /-- R191: more bytes are needed -/
  | incomplete
  /-- R192 to R194 -/
  | invalid (cause : Machine.Cause)
deriving DecidableEq, Repr

/-- What the decoder answers. -/
inductive Decoded where
  /-- the instruction, and how many bytes it takes -/
  | ok (i : Instr) (consumedLength : Nat)
  | rejected (r : Reject)
deriving DecidableEq, Repr

/-- The instruction at the front of a byte sequence (R101 step 4, R71); total on any bytes. -/
def decode (p : Params) (buf : List Byte) : Decoded :=
  match Machine.validate p.cksumOrder buf with
  | .incomplete => .rejected .incomplete
  | .invalid c => .rejected (.invalid c)
  | .valid f L => .ok (select p f) L

/-- The bytes of an instruction, head to tail (R60). -/
def encode (i : Instr) : List Byte := i.frame.bytes

/-- The bytes of a table word, frame offset 0 in the most significant byte (R77), at least the eight header bytes (zeros follow
a shorter word). -/
def wordBytes (nbits w : Nat) : List Byte :=
  let n := nbits / 8
  (List.range n).map (fun i => BitVec.ofNat 8 (w >>> (8 * (n - 1 - i)))) ++ List.replicate (8 - n) 0x00#8

/-- The frame bytes a table word stands for (log entry 14). The table's words are the eight header bytes of a VALID frame, its
checksum "already verified" (R77): payload bytes beyond the word are 0, the checksum field and the tail are what R62 and R60
fix. A word that holds the whole frame, or whose head or length no valid frame has, is taken as it stands. -/
def tableBytes (o : ByteOrder) (nbits w : Nat) : List Byte :=
  let b := wordBytes nbits w
  let N := Machine.rd16 b 6
  if N + 9 ≤ b.length then b
  else if Machine.byteAt b 0 ≠ Machine.headByte ∨ Machine.lenLimit ≤ N then b ++ [0x00#8]
  else
    let given := b.drop 8
    let payload := given.take N ++ List.replicate (N - given.length) 0x00#8
    (Machine.frameOf o (Machine.byteAt b 1) (Machine.byteAt b 2) (Machine.byteAt b 3) payload).bytes

/-- The instruction the decoder reads from a table word, under the default parameters of R7. -/
def decodeTableWord (nbits w : Nat) : Option Instr :=
  match decode Machine.defaultParams (tableBytes Machine.defaultParams.cksumOrder nbits w) with
  | .ok i _ => some i
  | .rejected _ => none

end Sys2Proof
end

