-- ==== Sys2Proof/Machine/State.lean ====
section
/-! DEFINITION. The state (10_state.md), the reasons a step can stop, and the state after reset. -/

namespace Sys2Proof.Machine

/-- The session state (R29). -/
inductive Session where
  /-- before the first `START` -/
  | idle
  | running
  /-- after `STOP` -/
  | stopped
deriving DecidableEq, Repr

/-- The operations the host calls (R9). -/
inductive HostOp where
  /-- R220 -/
  | start
  /-- R100 -/
  | feed (newBytes : List Byte)
  /-- R101 -/
  | tryExtractOne
  /-- R222 -/
  | stop
deriving DecidableEq, Repr

/-- The result of the last operation (R26): `START`, `FEED` and `STOP` give none, `TRY_EXTRACT_ONE` one of the other three. -/
inductive Reply where
  | silent
  | needMoreData
  | resynchronized
  /-- `Frame(event)`: no text, or the event text -/
  | frame (event : Option Text)
deriving DecidableEq, Repr

/-- The whole state. `acc`, `consumed` and `session` are the block's (R20, R21). The model's own are `reply`, the result an
operation returned (log entry 2), and `params`, the open parameters of R7, which no operation writes (R30, log entry 3). What
the host will ask for next and the bytes it has yet to feed are no part of it (R31): an operation takes them as its argument. -/
structure State where
  /-- the ByteAccumulator (R22), front first -/
  acc : List Byte
  /-- bytes dropped from the front since `START` (R25) -/
  consumed : Nat
  session : Session
  reply : Reply
  params : Params
deriving DecidableEq, Repr

/-- No operation of the block faults: no exception leaves any of them (R101, R190). Nobody raises one. -/
inductive Fault where
deriving DecidableEq, Repr

/-- Why an operation is not performed. -/
inductive Refusal where
  /-- An instruction without a meaning yet; raised only by an arm of `exec`. Safe. No arm raises it now. -/
  | notModelled (mnemonic : String)
  /-- An operation outside the session state that admits it (R29, R228, 93 U9); raised by `START`, `FEED`,
  `TRY_EXTRACT_ONE` and `STOP`. Safe: the spec gives it no transition. -/
  | notAdmitted (op : HostOp) (session : Session)
deriving DecidableEq, Repr

/-- What a step answers. -/
abbrev Answer := Host.Outcome State Fault Refusal

/-- The machine right after reset (R32): reset is `START`. -/
def State.reset : State where
  acc := []
  consumed := 0
  session := .running
  reply := .silent
  params := defaultParams

end Sys2Proof.Machine
end

