-- ==== Sys2Proof/Machine/Flags.lean ====
section
/-! DEFINITION. Status values. The block keeps no flag register (R26): its status is the result an operation returns, which the
model records in `reply`. -/

namespace Sys2Proof.Machine

/-- The operation returns `r` (R26). -/
def State.answer (s : State) (r : Reply) : State := { s with reply := r }

end Sys2Proof.Machine
end

