-- ==== Sys2Proof/Machine/Ops.lean ====
section
/-! DEFINITION. The named operations over the accumulator (R12, R22) and what the outcomes of a scan do to the state. -/

namespace Sys2Proof.Machine

/-- The byte at an accumulator offset; an offset at or beyond `len(acc)` names no byte (R40, R47). -/
def State.read (s : State) (offset : Nat) : Option Byte := s.acc[offset]?

/-- The accumulator as (stream offset, byte) cells: accumulator offset `i` is stream offset `consumed + i` (R25, R40). -/
def State.cells (s : State) : List Host.Cell := (s.acc.zipIdx s.consumed).map (fun c => (c.2, c.1))

/-- The canonical form of a list of cells: offsets strictly rising. -/
abbrev Memory.wf (cells : List Host.Cell) : Prop := cells.Pairwise (fun a b => a.1 < b.1)

/-- `Append(b)` (R12, R22). -/
def State.append (s : State) (b : List Byte) : State := { s with acc := s.acc ++ b }

/-- `DropFront(n)` (R12, R25); R12 requires `n <= len(acc)`. -/
def State.dropFront (s : State) (n : Nat) : State :=
  { s with acc := s.acc.drop n, consumed := s.consumed + n }

/-- The offset of the first head sentinel (R103, R104). -/
def State.findHead (s : State) : Option Nat := findByte headByte s.acc

/-- `NeedMoreData` (R102, R104, R106). -/
def State.needMoreData (s : State) : State := s.answer .needMoreData

/-- Taking an exception: what an `Invalid` verdict changes (R107, R200), the same for every cause. The falsely matched head
byte leaves `acc`, `consumed` grows by 1, the result is `Resynchronized`; nothing is saved. There is no return from it (R201):
the host calls `TRY_EXTRACT_ONE` again. -/
def State.resynchronize (s : State) : State := (s.dropFront 1).answer .resynchronized

/-- `Frame(event)` (R108): what every instruction answers. -/
def State.deliver (s : State) (event : Option Text) : Answer := .next (s.answer (.frame event))

/-- Refusal of an operation outside its session state (R29, R228). -/
def State.refuse (s : State) (op : HostOp) : Answer := .refused (.notAdmitted op s.session)

end Sys2Proof.Machine
end

