-- ==== Sys2Proof/Machine/Calls.lean ====
section
/-! DEFINITION. Calls and channel state: 0x06, 0x59, 0x62. -/

namespace Sys2Proof.Machine

/-- The identifiers that row 0x06 prints after "from" and after "to" (R162, `CALL06_ORDER`). -/
def callIds (p : Params) (f : Frame) : List Byte × List Byte :=
  match p.call06Order with
  | .wireOrder => (f.paySlice 1 5, f.paySlice 5 9)
  | .like62 => (f.paySlice 5 9, f.paySlice 1 5)

/-- R162; the length column selects, it does not filter (C7). -/
def eventCallState (p : Params) (f : Frame) : Option Text :=
  if f.isUpload p then
    if f.lenLow = 9 then
      some (callLabel (f.pay 0) ++ ascii " call started from " ++ hexcat (callIds p f).1
        ++ ascii " to " ++ hexcat (callIds p f).2)
    else some (ascii "Call ended")
  else miss p f

/-- R175; with no payload the event is any value (U1, log entry 11). -/
def eventChannelState (p : Params) (f : Frame) : Option Text :=
  if f.isUpload p then
    if 1 ≤ f.len then
      if f.pay 0 ≠ 0#8 then some (ascii "Channel is Busy") else some (ascii "Channel is Idle")
    else Config.unspecifiedEvent f.bytes
  else miss p f

/-- R177. -/
def eventDetectedCall (p : Params) (f : Frame) : Option Text :=
  if f.len = 10 then
    some (ascii "Detected " ++ callLabel (f.pay 0) ++ ascii " call from " ++ hexcat (f.paySlice 5 9)
      ++ ascii " to " ++ hexcat (f.paySlice 1 5) ++ ascii " in CC" ++ dec (f.payNat 9))
  else miss p f

def execCallState (f : Frame) (s : State) : Answer := s.deliver (eventCallState s.params f)

def execChannelState (f : Frame) (s : State) : Answer := s.deliver (eventChannelState s.params f)

def execDetectedCall (f : Frame) (s : State) : Answer := s.deliver (eventDetectedCall s.params f)

end Sys2Proof.Machine
end

