-- ==== Sys2Proof/Machine/Dump.lean ====
section
/-! DEFINITION. The two rows that are no listed command of their own: `FILTER_MISS` (R139) and `RAW_DUMP` (R181). -/

namespace Sys2Proof.Machine

/-- R139. -/
def eventFilterMiss (p : Params) (f : Frame) : Option Text := miss p f

/-- R181. -/
def eventRawDump (_p : Params) (f : Frame) : Option Text := dump f

def execFilterMiss (f : Frame) (s : State) : Answer := s.deliver (eventFilterMiss s.params f)

def execRawDump (f : Frame) (s : State) : Answer := s.deliver (eventRawDump s.params f)

end Sys2Proof.Machine
end

