-- ==== Sys2Proof/Machine/Identity.lean ====
section
/-! DEFINITION. Firmware version and local identifier: 0x25, 0x2A. -/

namespace Sys2Proof.Machine

/-- R167. -/
def eventFirmware (p : Params) (f : Frame) : Option Text :=
  if f.isToHost p && f.len == 4 then
    some (ascii "Firmware: " ++ fwHex p (f.pay 0) ++ ascii "." ++ fwHex p (f.pay 1) ++ ascii "."
      ++ fwHex p (f.pay 2) ++ ascii "." ++ fwHex p (f.pay 3))
  else miss p f

/-- R168: the four bytes printed reversed. -/
def eventSetLocalId (p : Params) (f : Frame) : Option Text :=
  if f.isToDevice && f.len == 4 then
    some (ascii "Set Local ID: " ++ hex2 (f.pay 3) ++ hex2 (f.pay 2) ++ hex2 (f.pay 1) ++ hex2 (f.pay 0))
  else miss p f

def execFirmware (f : Frame) (s : State) : Answer := s.deliver (eventFirmware s.params f)

def execSetLocalId (f : Frame) (s : State) : Answer := s.deliver (eventSetLocalId s.params f)

end Sys2Proof.Machine
end

