-- ==== Sys2Proof/Machine/InBand.lean ====
section
/-! DEFINITION. In-band data and the talker alias: 0x60. -/

namespace Sys2Proof.Machine

/-- The capped text bytes `p[3 .. 3 + min(cnt, 31))` of encodings 0, 1 and 2 (R176). -/
def aliasBytes (f : Frame) : List Byte := f.paySlice 3 (3 + min (f.payNat 2) 31)

/-- The capped UCS-2 units, big-endian, each converted on its own (R176 encoding 3, U3). -/
def aliasUcs2 (f : Frame) : Text :=
  (List.range (min (f.payNat 2) 15)).flatMap (fun i => utf8 (rd16 f.payload (3 + 2 * i)))

/-- The output template of the talker alias (R176). -/
def aliasText (f : Frame) (t : Text) : Option Text :=
  some (ascii "Talker Alias(" ++ dec (f.payNat 1) ++ ascii "): " ++ t)

/-- The talker-alias half of R176, by the encoding byte. -/
def talkerAlias (p : Params) (f : Frame) : Option Text :=
  match f.payNat 1 with
  | 0 | 2 => aliasText f (aliasBytes f)
  | 1 => aliasText f ((aliasBytes f).flatMap (fun b => utf8 b.toNat))
  | 3 => aliasText f (aliasUcs2 f)
  | _ =>
    match p.aliasOther with
    | .emptyText => aliasText f []
    | .noOutput => none
    | .rawDump => dump f

/-- R176. -/
def eventInBand (p : Params) (f : Frame) : Option Text :=
  if f.len = 34 then
    if f.pay 0 = 2#8 then talkerAlias p f else some (ascii "In Band:" ++ hexEach f.payload)
  else miss p f

def execInBand (f : Frame) (s : State) : Answer := s.deliver (eventInBand s.params f)

end Sys2Proof.Machine
end

