-- ==== Sys2Proof/Machine/Provisioning.lean ====
section
/-! DEFINITION. Key, channel and group list: 0x81, 0x82, 0x84. -/

namespace Sys2Proof.Machine

/-- R178; an unlisted key type gives no output at all, not a miss. -/
def eventSetKey (p : Params) (f : Frame) : Option Text :=
  if f.isToDevice && decide (7 ≤ f.len) then
    let pre := ascii "Set key: Seq " ++ dec (f.payNat 0) ++ ascii ", "
    match f.payNat 1 with
    | 0 => some (pre ++ ascii "OFF")
    | 1 => some (pre ++ ascii "ARC = " ++ keyHex p (keyBytes f 5))
    | 4 => some (pre ++ ascii "AES128 = " ++ keyHex p (keyBytes f 16))
    | 5 => some (pre ++ ascii "AES256 = " ++ keyHex p (keyBytes f 32))
    | _ => none
  else miss p f

/-- R179. -/
def eventSetChannel (p : Params) (f : Frame) : Option Text :=
  if f.isToDevice && f.len == 20 then
    some (ascii "Set Channel: TS" ++ dec (f.payNat 0) ++ ascii " CC" ++ dec (f.payNat 1)
      ++ ascii " RX " ++ dec (rd32 f.payload 3) ++ ascii " TX " ++ dec (rd32 f.payload 7))
  else miss p f

/-- The number of entries printed: `min(p[0], (N - 1) div 4)` (R180, D13). -/
def groupCount (f : Frame) : Nat := min (f.payNat 0) ((f.len - 1) / 4)

/-- Entry `i` of the group list, `p[1+4i .. 5+4i)` (R180, R66). -/
def groupEntry (f : Frame) (i : Nat) : Nat := decodeBcdId (f.paySlice (1 + 4 * i) (5 + 4 * i))

/-- R180; the length column selects between two outputs (C7). -/
def eventSetGroupList (p : Params) (f : Frame) : Option Text :=
  if f.isToDevice then
    if f.len < 5 then some (ascii "Cleared group list")
    else
      some (ascii "Set group list:"
        ++ (List.range (groupCount f)).flatMap (fun i => space :: dec (groupEntry f i)))
  else miss p f

def execSetKey (f : Frame) (s : State) : Answer := s.deliver (eventSetKey s.params f)

def execSetChannel (f : Frame) (s : State) : Answer := s.deliver (eventSetChannel s.params f)

def execSetGroupList (f : Frame) (s : State) : Answer := s.deliver (eventSetGroupList s.params f)

end Sys2Proof.Machine
end

