-- ==== Sys2Proof/Machine/Settings.lean ====
section
/-! DEFINITION. Settings and fixed texts: 0x02, 0x0B, 0x0C, 0x1A, 0x3E, 0x42, 0x45, 0x4D. -/

namespace Sys2Proof.Machine

/-- The shape of R160, R164, R174: one payload byte, printed in decimal after a fixed text. -/
def levelEvent (label : String) (p : Params) (f : Frame) : Option Text :=
  if f.isToDevice && f.len == 1 then some (ascii label ++ dec (f.payNat 0)) else miss p f

/-- R160. -/
def eventSetRxVolume (p : Params) (f : Frame) : Option Text := levelEvent "Set RX Volume to " p f

/-- R164. -/
def eventSetMicGain (p : Params) (f : Frame) : Option Text := levelEvent "Set MIC Gain to " p f

/-- R174. -/
def eventSetSquelch (p : Params) (f : Frame) : Option Text := levelEvent "Set Squelch Level to " p f

/-- `m` of R165. -/
def powerSaveName (level : Nat) : Text :=
  match level with
  | 0 => ascii "Off"
  | 1 => ascii "Level 1"
  | 2 => ascii "Level 2"
  | _ => ascii "Level 3"

/-- R165. -/
def eventSetPowerSave (p : Params) (f : Frame) : Option Text :=
  if f.isToDevice && f.len == 1 then some (ascii "Set Power Saving Mode to " ++ powerSaveName (f.payNat 0))
  else miss p f

/-- R166. -/
def eventInitStatus (_p : Params) (_f : Frame) : Option Text := some (ascii "Initialization Status")

/-- R169. -/
def eventWakeUp (p : Params) (f : Frame) : Option Text :=
  if f.isToDevice then some (ascii "Wake Up") else miss p f

/-- R170. -/
def eventDeepSleep (_p : Params) (_f : Frame) : Option Text := some (ascii "Deep Sleep Mode")

/-- R171. -/
def eventSetAlarmCfg (_p : Params) (_f : Frame) : Option Text := some (ascii "Set Alarm Configuration")

def execSetRxVolume (f : Frame) (s : State) : Answer := s.deliver (eventSetRxVolume s.params f)

def execSetMicGain (f : Frame) (s : State) : Answer := s.deliver (eventSetMicGain s.params f)

def execSetSquelch (f : Frame) (s : State) : Answer := s.deliver (eventSetSquelch s.params f)

def execSetPowerSave (f : Frame) (s : State) : Answer := s.deliver (eventSetPowerSave s.params f)

def execInitStatus (f : Frame) (s : State) : Answer := s.deliver (eventInitStatus s.params f)

def execWakeUp (f : Frame) (s : State) : Answer := s.deliver (eventWakeUp s.params f)

def execDeepSleep (f : Frame) (s : State) : Answer := s.deliver (eventDeepSleep s.params f)

def execSetAlarmCfg (f : Frame) (s : State) : Answer := s.deliver (eventSetAlarmCfg s.params f)

end Sys2Proof.Machine
end

