-- ==== Sys2Proof/Machine/Suppressed.lean ====
section
/-! DEFINITION. The rows that give no output (R74): 0x05, 0x09, 0x48, 0x4C. The frame is consumed all the same. -/

namespace Sys2Proof.Machine

/-- R161. -/
def eventSignalCheck (_p : Params) (_f : Frame) : Option Text := none

/-- R163. -/
def eventAlarm (_p : Params) (_f : Frame) : Option Text := none

/-- R172. -/
def eventQuiet48 (_p : Params) (_f : Frame) : Option Text := none

/-- R173. -/
def eventQuiet4C (_p : Params) (_f : Frame) : Option Text := none

def execSignalCheck (f : Frame) (s : State) : Answer := s.deliver (eventSignalCheck s.params f)

def execAlarm (f : Frame) (s : State) : Answer := s.deliver (eventAlarm s.params f)

def execQuiet48 (f : Frame) (s : State) : Answer := s.deliver (eventQuiet48 s.params f)

def execQuiet4C (f : Frame) (s : State) : Answer := s.deliver (eventQuiet4C s.params f)

end Sys2Proof.Machine
end

