-- ==== Sys2Proof/Machine/Dispatch.lean ====
section
/-! DEFINITION. `exec`: one arm per row of the opcode table. -/

namespace Sys2Proof.Machine

open Sys2Proof

def exec (i : Instr) (s : State) : Host.Outcome State Fault Refusal :=
  match i with
  | .setRxVolume f => Sys2Proof.Machine.execSetRxVolume f s
  | .signalCheck f => Sys2Proof.Machine.execSignalCheck f s
  | .callState f => Sys2Proof.Machine.execCallState f s
  | .alarm f => Sys2Proof.Machine.execAlarm f s
  | .setMicGain f => Sys2Proof.Machine.execSetMicGain f s
  | .setPowerSave f => Sys2Proof.Machine.execSetPowerSave f s
  | .initStatus f => Sys2Proof.Machine.execInitStatus f s
  | .firmware f => Sys2Proof.Machine.execFirmware f s
  | .setLocalId f => Sys2Proof.Machine.execSetLocalId f s
  | .wakeUp f => Sys2Proof.Machine.execWakeUp f s
  | .deepSleep f => Sys2Proof.Machine.execDeepSleep f s
  | .setAlarmCfg f => Sys2Proof.Machine.execSetAlarmCfg f s
  | .quiet48 f => Sys2Proof.Machine.execQuiet48 f s
  | .quiet4C f => Sys2Proof.Machine.execQuiet4C f s
  | .setSquelch f => Sys2Proof.Machine.execSetSquelch f s
  | .channelState f => Sys2Proof.Machine.execChannelState f s
  | .inBand f => Sys2Proof.Machine.execInBand f s
  | .detectedCall f => Sys2Proof.Machine.execDetectedCall f s
  | .setKey f => Sys2Proof.Machine.execSetKey f s
  | .setChannel f => Sys2Proof.Machine.execSetChannel f s
  | .setGroupList f => Sys2Proof.Machine.execSetGroupList f s
  | .filterMiss f => Sys2Proof.Machine.execFilterMiss f s
  | .rawDump f => Sys2Proof.Machine.execRawDump f s

end Sys2Proof.Machine
end

