-- ==== Sys2Proof/Machine/Scanner.lean ====
section
/-! DEFINITION. FrameScanner: `TRY_EXTRACT_ONE` (R101 to R108). -/

namespace Sys2Proof.Machine

/-- Steps 4 to 7 (R105 to R108), on a state whose accumulator starts at a head sentinel. The frame's bytes are dropped and the
instruction they encode is executed; the order of the two cannot be observed (R108). -/
def scanCandidate (s : State) : Answer :=
  match decode s.params s.acc with
  | .rejected .incomplete => .next s.needMoreData
  | .rejected (.invalid _) => .next s.resynchronize
  | .ok i L => exec i (s.dropFront L)

/-- Steps 1 to 7 (R101). An empty accumulator is the case of no head sentinel with nothing to drop (R102, R104). -/
def scan (s : State) : Answer :=
  match s.findHead with
  | none => .next (s.dropFront s.acc.length).needMoreData
  | some k => scanCandidate (s.dropFront k)

/-- `TRY_EXTRACT_ONE` (R101): admitted in `Running` only (R29). -/
def tryExtractOne (s : State) : Answer :=
  match s.session with
  | .running => scan s
  | .idle | .stopped => s.refuse .tryExtractOne

end Sys2Proof.Machine
end

