-- ==== Sys2Proof/Machine/Session.lean ====
section
/-! DEFINITION. The session operations of the host: `START` (R220), `FEED` (R100), `STOP` (R222). -/

namespace Sys2Proof.Machine

/-- `START` (R220), the block's reset (R221): admitted in `Idle` and `Stopped`, refused in `Running`. -/
def start (s : State) : Answer :=
  match s.session with
  | .running => s.refuse .start
  | .idle | .stopped => .next { s with acc := [], consumed := 0, session := .running, reply := .silent }

/-- `FEED(newBytes)` (R100): admitted in `Running`; it cannot fail there (D17). -/
def feed (newBytes : List Byte) (s : State) : Answer :=
  match s.session with
  | .running => .next ((s.append newBytes).answer .silent)
  | .idle | .stopped => s.refuse (.feed newBytes)

/-- `STOP` (R222): admitted in `Running`; `consumed` is left as it is. -/
def stop (s : State) : Answer :=
  match s.session with
  | .running => .next { s with acc := [], session := .stopped, reply := .silent }
  | .idle | .stopped => s.refuse .stop

end Sys2Proof.Machine
end

