-- ==== Sys2Proof/Machine/Perform.lean ====
section
/-! DEFINITION. One operation of the host (R9), each an atomic transition (R49). -/

namespace Sys2Proof.Machine

/-- The operation the host asks for (R9). -/
def perform (op : HostOp) (s : State) : Answer :=
  match op with
  | .start => start s
  | .feed newBytes => feed newBytes s
  | .tryExtractOne => tryExtractOne s
  | .stop => stop s

/-- A host's script, operation by operation, up to the first that is not admitted. The script is the environment's and so an
argument, never a part of the state (R31, log entry 1). -/
def performAll : List HostOp → State → Answer
  | [], s => .next s
  | op :: ops, s =>
    match perform op s with
    | .next t => performAll ops t
    | .fault r => .fault r
    | .refused r => .refused r

/-- The operation in which the engine examines the stream and executes an instruction: `TRY_EXTRACT_ONE` (R25, log entry 1). -/
def performNext (s : State) : Answer := perform .tryExtractOne s

/-- A table word's frame placed at the front of the accumulator of a running session (log entry 13). -/
def placeWord (s : State) (nbits w : Nat) : State :=
  { s with acc := tableBytes s.params.cksumOrder nbits w ++ s.acc, session := .running }

end Sys2Proof.Machine
end

