-- ==== Sys2Proof/Machine/Step.lean ====
section
/-! DEFINITION. One step: `TRY_EXTRACT_ONE`, which fetches, decodes and executes one frame. The other operations of the host are
taken between steps (R49, R198): `perform`. -/

namespace Sys2Proof.Machine

/-- One step (R9, R49). -/
def step (s : State) : Host.Outcome State Fault Refusal := performNext s

/-- `s` with the instruction of a table word where the next step fetches (log entry 13). -/
def State.withFetchWord (s : State) (nbits w : Nat) : State := placeWord s nbits w

end Sys2Proof.Machine
end

