-- ==== Sys2Proof/Machine/Interpreter.lean ====
section
/-! DEFINITION. CommandInterpreter: `interpret` (R135) as a pure function of the frame, dispatching on the command code alone. -/

namespace Sys2Proof.Machine

/-- `interpret(frame)` (R135, R70): each listed row applies its own filters and answers `miss` where they fail. -/
def interpret (p : Params) (f : Frame) : Option Text :=
  match f.command.toNat with
  | 0x02 => eventSetRxVolume p f
  | 0x05 => eventSignalCheck p f
  | 0x06 => eventCallState p f
  | 0x09 => eventAlarm p f
  | 0x0B => eventSetMicGain p f
  | 0x0C => eventSetPowerSave p f
  | 0x1A => eventInitStatus p f
  | 0x25 => eventFirmware p f
  | 0x2A => eventSetLocalId p f
  | 0x3E => eventWakeUp p f
  | 0x42 => eventDeepSleep p f
  | 0x45 => eventSetAlarmCfg p f
  | 0x48 => eventQuiet48 p f
  | 0x4C => eventQuiet4C p f
  | 0x4D => eventSetSquelch p f
  | 0x59 => eventChannelState p f
  | 0x60 => eventInBand p f
  | 0x62 => eventDetectedCall p f
  | 0x81 => eventSetKey p f
  | 0x82 => eventSetChannel p f
  | 0x84 => eventSetGroupList p f
  | _ => eventRawDump p f

end Sys2Proof.Machine
end

