-- ==== Sys2Proof/Machine/HostLoop.lean ====
section
/-! DEFINITION. The driving loop the host owes (R110, R197, R223): draining, feeding and draining, and a whole session. These are
functions over the operations; the block does not enforce the duty (R110). -/

namespace Sys2Proof.Machine

/-- The inner `repeat ... until r = NeedMoreData` (R110), at most `fuel` calls: the replies in order, and the state after. -/
def drainLoop : Nat → State → List Reply × State
  | 0, s => ([], s)
  | fuel + 1, s =>
    match tryExtractOne s with
    | .next t =>
      if t.reply = .needMoreData then ([t.reply], t)
      else (t.reply :: (drainLoop fuel t).1, (drainLoop fuel t).2)
    | .fault _ => ([], s)
    | .refused _ => ([], s)

/-- A drain: at most `len(acc) + 1` calls are ever needed (R33 I3). -/
def drain (s : State) : List Reply × State := drainLoop (s.acc.length + 1) s

/-- One turn of the loop: `FEED(b)`, then drain. -/
def feedDrain (b : List Byte) (s : State) : List Reply × State :=
  match feed b s with
  | .next t => drain t
  | .fault _ => ([], s)
  | .refused _ => ([], s)

/-- One `FEED` and drain after another. -/
def feedDrainAll : List (List Byte) → State → List Reply × State
  | [], s => ([], s)
  | b :: bs, s =>
    let r := feedDrain b s
    let rest := feedDrainAll bs r.2
    (r.1 ++ rest.1, rest.2)

/-- The results that are not `NeedMoreData` (R112). -/
def results (rs : List Reply) : List Reply := rs.filter (fun r => decide (r ≠ .needMoreData))

/-- The texts handed to the presentation collaborator (R110), in emission order (R50 O4). -/
def textsOf : List Reply → List Text
  | [] => []
  | .frame (some t) :: rs => t :: textsOf rs
  | _ :: rs => textsOf rs

/-- What the host observes at one turn of its loop (R110). -/
inductive HostEvent where
  /-- the stop signal, tested before the read (R199) -/
  | stopSignal
  /-- `readSome` failed other than by timeout (R197) -/
  | transportError
  /-- `readSome` returned these bytes, possibly none -/
  | read (bytes : List Byte)
deriving DecidableEq, Repr

/-- `STOP; exit` (R110). -/
def stopAndExit (s : State) : State :=
  match stop s with
  | .next t => t
  | .fault _ => s
  | .refused _ => s

/-- The host's loop after `START` (R110): the texts handed over, and the state when it exits or runs out of events. -/
def hostLoop : List HostEvent → State → List Text × State
  | [], s => ([], s)
  | .stopSignal :: _, s => ([], stopAndExit s)
  | .transportError :: _, s => ([], stopAndExit s)
  | .read b :: es, s =>
    let r := feedDrain b s
    let rest := hostLoop es r.2
    (textsOf r.1 ++ rest.1, rest.2)

end Sys2Proof.Machine
end

