-- ==== Sys2Proof/Safety.lean ====
section
/-! DEFINITION. What holds of every state of a run: the invariants of R33, R29, R222 and R7. -/

namespace Sys2Proof.Machine

/-- I1 and I2 of R33: a candidate the scanner waits on. The accumulator is empty, or it starts at a head sentinel, the decoder
needs more bytes, and at most `MAX_FRAME - 1` are held. -/
def State.Waiting (s : State) : Prop :=
  s.acc = [] ∨
    (byteAt s.acc 0 = headByte ∧ decode s.params s.acc = .rejected .incomplete ∧ s.acc.length < maxFrame)

/-- The state invariant: the parameters meet R7's constraints; outside a session the accumulator holds nothing (R222, R32);
right after `NeedMoreData` the accumulator is one the scanner waits on (R33). -/
structure State.Inv (s : State) : Prop where
  params : s.params.WF
  cleared : s.session ≠ .running → s.acc = []
  waiting : s.reply = .needMoreData → s.Waiting

end Sys2Proof.Machine
end

