-- ==== Sys2Proof/Certificates/Slice0/Obligations.lean ====
section
/-! DEFINITION. The statements for the provers. `reply` holds the result an operation returns: it is the model's own field (log
entry 2). `consumed` is the spec's ghost counter (D24). -/

open Sys2Proof Sys2Proof.Machine

/-! ### Session and step -/

/-- R32: the values right after reset and after `START`, and what `STOP` leaves. -/
def Obligations.ResetAndSessionValues : Prop :=
  (State.reset.acc = [] ∧ State.reset.consumed = 0 ∧ State.reset.session = .running)
  ∧ (∀ s : State, s.session ≠ .running →
      ∃ t, start s = .next t ∧ t.acc = [] ∧ t.consumed = 0 ∧ t.session = .running)
  ∧ (∀ s : State, s.session = .running →
      ∃ t, stop s = .next t ∧ t.acc = [] ∧ t.consumed = s.consumed ∧ t.session = .stopped)

/-- R220, R100, R222 as whole states; that the reply is `silent` is the model's (log entry 2). -/
def Obligations.SessionOperationsAnswerWholeStates : Prop :=
  (∀ s : State, s.session ≠ .running →
    perform .start s = .next { s with acc := [], consumed := 0, session := .running, reply := .silent })
  ∧ (∀ (s : State) (b : List Byte), s.session = .running →
    perform (.feed b) s = .next { s with acc := s.acc ++ b, reply := .silent })
  ∧ (∀ s : State, s.session = .running →
    perform .stop s = .next { s with acc := [], session := .stopped, reply := .silent })

/-- R29, R228 (the spec's own decision D25, log entry 23): an operation outside its session state has no transition. -/
def Obligations.OperationsOutsideTheirSessionAreRefused : Prop :=
  (∀ s : State, s.session = .running → perform .start s = .refused (.notAdmitted .start s.session))
  ∧ (∀ (s : State) (op : HostOp), s.session ≠ .running → op ≠ .start →
      perform op s = .refused (.notAdmitted op s.session))

/-- R9, R49: one operation after another, each whole, up to the first that is refused; a script of two parts is the second part
after the first. That a step is `TRY_EXTRACT_ONE` is the model's (log entry 1). -/
def Obligations.ScriptsPerformTheirOperationsInOrder : Prop :=
  (∀ s : State, step s = perform .tryExtractOne s)
  ∧ (∀ (s : State) (op : HostOp), performAll [op] s = perform op s)
  ∧ (∀ (s t : State) (ops rest : List HostOp), performAll ops s = .next t →
      performAll (ops ++ rest) s = performAll rest t)
  ∧ (∀ (s : State) (r : Refusal) (ops rest : List HostOp), performAll ops s = .refused r →
      performAll (ops ++ rest) s = .refused r)

/-- R101, R105, R108: when the bytes at the first head sentinel decode to an instruction, the step drops the noise and the
frame and is `exec` of that instruction. -/
def Obligations.StepRunsTheDecodedInstruction : Prop :=
  ∀ (s : State) (k L : Nat) (i : Instr), s.session = .running → s.findHead = some k →
    decode s.params (s.acc.drop k) = .ok i L →
    WellFormed s.params i = true
      ∧ step s = exec i { s with acc := (s.acc.drop k).drop L, consumed := s.consumed + k + L }

/-! ### Scanner -/

/-- R102, R104: without a head sentinel everything is dropped and the answer is `NeedMoreData`. -/
def Obligations.NoHeadDropsEverything : Prop :=
  ∀ s : State, s.session = .running → headByte ∉ s.acc →
    tryExtractOne s =
      .next { s with acc := [], consumed := s.consumed + s.acc.length, reply := .needMoreData }

/-- R103 with the spec's own decision D26 (log entry 17): leading noise is dropped and the same call goes on. -/
def Obligations.LeadingNoiseIsDroppedInTheSameCall : Prop :=
  ∀ (s : State) (noise rest : List Byte), s.session = .running → headByte ∉ noise →
    s.acc = noise ++ headByte :: rest →
    tryExtractOne s =
      tryExtractOne { s with acc := headByte :: rest, consumed := s.consumed + noise.length }

/-- R106: an incomplete candidate is left untouched, and asking again changes nothing. -/
def Obligations.IncompleteCandidateIsLeftUntouched : Prop :=
  ∀ s : State, s.session = .running → s.acc.head? = some headByte →
    validate s.params.cksumOrder s.acc = .incomplete →
    tryExtractOne s = .next { s with reply := .needMoreData }
      ∧ tryExtractOne { s with reply := .needMoreData } = .next { s with reply := .needMoreData }

/-- R109 (a) with C4: a call after `NeedMoreData` changes nothing at all. -/
def Obligations.ReofferIsIdempotent : Prop :=
  ∀ s t : State, tryExtractOne s = .next t → t.reply = .needMoreData → tryExtractOne t = .next t

/-- R107, R200: every `Invalid` verdict drops exactly the head byte; nothing else changes. -/
def Obligations.InvalidCandidateDropsOneByte : Prop :=
  ∀ (s : State) (rest : List Byte) (c : Cause), s.session = .running → s.acc = headByte :: rest →
    validate s.params.cksumOrder s.acc = .invalid c →
    tryExtractOne s =
      .next { s with acc := rest, consumed := s.consumed + 1, reply := .resynchronized }

/-- R108: a valid frame at the front is dropped whole and its event returned; the bytes after it stay. -/
def Obligations.ValidFrameIsDeliveredAndDropped : Prop :=
  ∀ (s : State) (f : Frame) (rest : List Byte), s.session = .running →
    f.ok s.params.cksumOrder = true → s.acc = f.bytes ++ rest →
    tryExtractOne s =
      .next { s with acc := rest, consumed := s.consumed + (9 + f.len),
                     reply := .frame (interpret s.params f) }

/-- R109 (d), R24: a `Frame` result comes only from the bytes of a valid frame, standing after noise without a head sentinel. -/
def Obligations.FrameResultComesFromAValidFrame : Prop :=
  ∀ (s t : State) (e : Option Text), tryExtractOne s = .next t → t.reply = .frame e →
    ∃ (noise : List Byte) (f : Frame), headByte ∉ noise ∧ f.ok s.params.cksumOrder = true
      ∧ s.acc = noise ++ f.bytes ++ t.acc ∧ e = interpret s.params f
      ∧ t.consumed = s.consumed + noise.length + f.bytes.length

/-- R33 (I1, I2, I3): a call answers `NeedMoreData` on an accumulator it waits on, of at most 263 bytes, or shortens it. -/
def Obligations.ScannerWaitsOrProgresses : Prop :=
  ∀ s t : State, tryExtractOne s = .next t →
    (t.reply = .needMoreData
        ∧ (t.acc = [] ∨ (t.acc.head? = some headByte
            ∧ validate t.params.cksumOrder t.acc = .incomplete ∧ t.acc.length ≤ 263)))
      ∨ (t.reply ≠ .needMoreData ∧ t.acc.length < s.acc.length)

/-- R22, R25, R113: the scanner only drops from the front; every byte that stays is the byte it was, one `n` lower, and no
other part of the state but the reply changes. -/
def Obligations.ScannerOnlyDropsFromTheFront : Prop :=
  ∀ s t : State, tryExtractOne s = .next t →
    ∃ n, n ≤ s.acc.length
      ∧ t = { s with acc := s.acc.drop n, consumed := s.consumed + n, reply := t.reply }
      ∧ (∀ a, t.read a = s.read (a + n))

/-- R33 (I3), R229: a drain ends with `NeedMoreData` after at most `len(acc) + 1` calls, in a state the scanner waits on. -/
def Obligations.DrainEndsWaiting : Prop :=
  ∀ s : State, s.session = .running →
    ∃ rs : List Reply, (drain s).1 = rs ++ [.needMoreData] ∧ .needMoreData ∉ rs
      ∧ rs.length ≤ s.acc.length ∧ (drain s).2.Waiting

/-- R109 (b): a buffer of exactly these valid frames back to back drains to their events in order, then `NeedMoreData`, and
ends empty. -/
def Obligations.DrainDeliversBackToBackFrames : Prop :=
  ∀ (s : State) (fs : List Frame), s.session = .running →
    (∀ f ∈ fs, f.ok s.params.cksumOrder = true) → s.acc = fs.flatMap Frame.bytes →
    drain s =
      (fs.map (fun f => .frame (interpret s.params f)) ++ [.needMoreData],
        { s with acc := [], consumed := s.consumed + s.acc.length, reply := .needMoreData })

/-- R112: two cuttings of one byte sequence, each piece fed and drained, give the same results that are not `NeedMoreData`, the
same accumulator and the same position. -/
def Obligations.ResultsDoNotDependOnFragmentation : Prop :=
  ∀ (s : State) (xs ys : List (List Byte)), s.session = .running → s.acc = [] → xs.flatten = ys.flatten →
    results (feedDrainAll xs s).1 = results (feedDrainAll ys s).1
      ∧ (feedDrainAll xs s).2.acc = (feedDrainAll ys s).2.acc
      ∧ (feedDrainAll xs s).2.consumed = (feedDrainAll ys s).2.consumed

/-- R110, R199, R197: once the stop signal or a transport error is seen nothing more is decoded, and the session is stopped. -/
def Obligations.StopSignalEndsDecoding : Prop :=
  ∀ (s : State) (ev : HostEvent) (es : List HostEvent), s.session = .running →
    (ev = .stopSignal ∨ ev = .transportError) →
    (hostLoop (ev :: es) s).1 = [] ∧ (hostLoop (ev :: es) s).2.acc = []
      ∧ (hostLoop (ev :: es) s).2.session = .stopped
      ∧ (hostLoop (ev :: es) s).2.consumed = s.consumed

/-! ### Checksum and validator -/

/-- R93: two passes of the fold leave no carry; the value is 0 only for 0 and else the residue modulo 0xFFFF. -/
def Obligations.FoldIsTheResidueModulo65535 : Prop :=
  ∀ v : Nat, v < 2 ^ 32 →
    foldCarry 2 v < 65536 ∧ (foldCarry 2 v = 0 ↔ v = 0) ∧ foldCarry 2 v % 65535 = v % 65535

/-- R96 (a): for a frame, neutralising the field with 0xFFFF gives the checksum computed with the field zeroed. -/
def Obligations.NeutralFieldEqualsZeroedField : Prop :=
  ∀ f : Frame, f.len < 256 →
    compute f.neutral.bytes = compute ({ f with check4 := 0x00#8, check5 := 0x00#8 } : Frame).bytes

/-- R96 (b), a fact the spec marks as derived: a frame passes the check exactly when the one's-complement sum of all its words is
0xFFFF. The clause on a carried 0xFFFF is the model's (log entry 36): there the sum can be 0xFFFF, while R90 never gives a frame
that value, so R126 rejects the frame. -/
def Obligations.CheckIsTheOnesComplementSum : Prop :=
  ∀ f : Frame, f.len < 256 →
    (compute f.neutral.bytes = f.carried .bigEndian
      ↔ f.carried .bigEndian ≠ 0xFFFF#16 ∧ foldCarry 2 (wordSum f.bytes) = 0xFFFF)

/-- R130, R96 (c): changing one payload, command, direction or sequence byte of a valid frame makes `validate` reject it. -/
def Obligations.SingleByteChangeIsRejected : Prop :=
  ∀ (o : ByteOrder) (f : Frame), f.ok o = true →
    (∀ (i : Nat) (b : Byte), i < f.len → f.payload[i]? ≠ some b →
        validate o ({ f with payload := f.payload.set i b } : Frame).bytes = .invalid .cksum)
    ∧ (∀ b : Byte, b ≠ f.command → validate o ({ f with command := b } : Frame).bytes = .invalid .cksum)
    ∧ (∀ b : Byte, b ≠ f.direction → validate o ({ f with direction := b } : Frame).bytes = .invalid .cksum)
    ∧ (∀ b : Byte, b ≠ f.sequence → validate o ({ f with sequence := b } : Frame).bytes = .invalid .cksum)

/-- R130, R75: a frame whose field holds the computed checksum is accepted, whatever follows it. -/
def Obligations.ChecksumRoundTrip : Prop :=
  ∀ (o : ByteOrder) (cmd dir seq : Byte) (payload rest : List Byte), payload.length < 256 →
    validate o ((frameOf o cmd dir seq payload).bytes ++ rest)
      = .valid (frameOf o cmd dir seq payload) (9 + payload.length)

/-- R122: with nine bytes in hand a length of 256 or more (a nonzero high byte) is `Invalid(LEN)`, whatever follows, and the
scanner advances by one byte. -/
def Obligations.LengthGuardNeedsNineBytes : Prop :=
  (∀ (o : ByteOrder) (buf : List Byte), 9 ≤ buf.length →
    (validate o buf = .invalid .len ↔ 256 ≤ rd16 buf 6) ∧ (256 ≤ rd16 buf 6 ↔ byteAt buf 6 ≠ 0#8))
  ∧ (∀ (s : State) (rest : List Byte), s.session = .running → s.acc = headByte :: rest → 9 ≤ s.acc.length →
      256 ≤ rd16 s.acc 6 →
      tryExtractOne s = .next { s with acc := rest, consumed := s.consumed + 1, reply := .resynchronized })

/-- R121 (threshold 9 is decision D2, log entry 18), R123: when the verdict is `Incomplete`. -/
def Obligations.IncompleteExactlyWhenBytesAreMissing : Prop :=
  ∀ (o : ByteOrder) (buf : List Byte),
    validate o buf = .incomplete
      ↔ buf.length < 9 ∨ (byteAt buf 6 = 0#8 ∧ buf.length < 9 + (byteAt buf 7).toNat)

/-- R24, R124, R127: `Valid` exactly for the bytes of a frame that meets the frame invariant, with anything after it. That a buffer
without a head is not valid is the spec's own decision D19 (log entry 21), that the frame is as received its decision D6 (log
entry 19). -/
def Obligations.ValidatorAcceptsExactlyTheFrames : Prop :=
  ∀ (o : ByteOrder) (buf : List Byte) (f : Frame) (L : Nat),
    validate o buf = .valid f L
      ↔ f.ok o = true ∧ L = 9 + f.len ∧ ∃ rest, buf = f.bytes ++ rest

/-- R129 (b), (c): more bytes never change a verdict other than `Incomplete`, and 264 bytes always decide. -/
def Obligations.VerdictIsPrefixStable : Prop :=
  ∀ (o : ByteOrder) (buf : List Byte),
    (validate o buf ≠ .incomplete → ∀ t, validate o (buf ++ t) = validate o buf)
      ∧ (264 ≤ buf.length → validate o buf ≠ .incomplete)

/-- R199, R193: on a complete candidate a wrong tail decides, whatever the checksum is. -/
def Obligations.TailIsTestedBeforeTheChecksum : Prop :=
  ∀ (o : ByteOrder) (f : Frame) (b : Byte) (rest : List Byte), f.len < 256 → b ≠ tailByte →
    validate o (f.bytes.dropLast ++ b :: rest) = .invalid .tail

/-! ### Encoding -/

/-- R60, R71, R128: decoding the bytes of a well-formed instruction, whatever follows them, gives it back. -/
def Obligations.DecodeInvertsEncode : Prop :=
  ∀ (p : Params) (i : Instr) (rest : List Byte), WellFormed p i = true →
    decode p (encode i ++ rest) = .ok i (encode i).length

/-- The other direction: what the decoder accepts is the encoding of a well-formed instruction. -/
def Obligations.EncodeInvertsDecode : Prop :=
  ∀ (p : Params) (buf : List Byte) (i : Instr) (L : Nat), decode p buf = .ok i L →
    WellFormed p i = true ∧ L ≤ buf.length ∧ buf.take L = encode i

/-- R71, R182: exactly one row applies to every frame. -/
def Obligations.RowSelectionFollowsTheMap : Prop :=
  ∀ (p : Params) (f : Frame),
    (f.command ∉ listedCodes → select p f = .rawDump f)
    ∧ (∀ i ∈ listedRows f, i.ownRow p = true → select p f = i)
    ∧ (f.command ∈ listedCodes → (∀ i ∈ listedRows f, i.ownRow p = false) → select p f = .filterMiss f)

/-- Words of the spec's own examples (95 S1, V-05-1, S4, V-0B-2) decode to their rows. -/
def Obligations.ExampleWordsDecode : Prop :=
  decode defaultParams [0x68#8, 0x02#8, 0x01#8, 0x00#8, 0x76#8, 0xEC#8, 0x00#8, 0x01#8, 0x20#8, 0x10#8]
      = .ok (.setRxVolume ⟨0x02#8, 0x01#8, 0x00#8, 0x76#8, 0xEC#8, [0x20#8]⟩) 10
  ∧ decode defaultParams [0x68#8, 0x05#8, 0x01#8, 0x00#8, 0x86#8, 0xFA#8, 0x00#8, 0x00#8, 0x10#8]
      = .ok (.signalCheck ⟨0x05#8, 0x01#8, 0x00#8, 0x86#8, 0xFA#8, []⟩) 9
  ∧ decode defaultParams
      [0x68#8, 0x70#8, 0x01#8, 0x00#8, 0xDB#8, 0xD1#8, 0x00#8, 0x02#8, 0xAA#8, 0xBB#8, 0x10#8]
      = .ok (.rawDump ⟨0x70#8, 0x01#8, 0x00#8, 0xDB#8, 0xD1#8, [0xAA#8, 0xBB#8]⟩) 11
  ∧ decode defaultParams [0x68#8, 0x0B#8, 0x01#8, 0x00#8, 0x86#8, 0xF4#8, 0x00#8, 0x00#8, 0x10#8]
      = .ok (.filterMiss ⟨0x0B#8, 0x01#8, 0x00#8, 0x86#8, 0xF4#8, []⟩) 9

/-- R135, R71: executing the row that selection gives a frame delivers what `interpret` says of the frame. -/
def Obligations.ExecutionAgreesWithInterpret : Prop :=
  ∀ (f : Frame) (s : State),
    exec (select s.params f) s = .next { s with reply := .frame (interpret s.params f) }

/-! ### Rows -/

/-- R160; the last clause is its encoding: every frame with code 0x02, admitted or not, executes as this row. -/
def Obligations.SetRxVolumeResult : Prop :=
  ∀ (f : Frame) (s : State),
    (∀ v, f.direction = 0x01#8 → f.payload = [v] →
      exec (.setRxVolume f) s =
        .next { s with reply := .frame (some (ascii "Set RX Volume to " ++ dec v.toNat)) })
    ∧ (f.direction ≠ 0x01#8 ∨ f.payload.length ≠ 1 →
      exec (.setRxVolume f) s = .next { s with reply := .frame (miss s.params f) })
    ∧ (f.command = 0x02#8 → exec (select s.params f) s = exec (.setRxVolume f) s)

/-- R164, R174, with the spec's own decision D16 that the number is payload byte 0 in decimal (log entry 24). -/
def Obligations.MicGainAndSquelchResult : Prop :=
  ∀ (f : Frame) (s : State) (v : Byte), f.direction = 0x01#8 → f.payload = [v] →
    exec (.setMicGain f) s = .next { s with reply := .frame (some (ascii "Set MIC Gain to " ++ dec v.toNat)) }
    ∧ exec (.setSquelch f) s =
        .next { s with reply := .frame (some (ascii "Set Squelch Level to " ++ dec v.toNat)) }

/-- R161, R163, R172, R173: a `Frame` result without a text, for every frame with the row's code. -/
def Obligations.SuppressedRowsGiveNoText : Prop :=
  ∀ (f : Frame) (s : State),
    exec (.signalCheck f) s = .next { s with reply := .frame none }
    ∧ exec (.alarm f) s = .next { s with reply := .frame none }
    ∧ exec (.quiet48 f) s = .next { s with reply := .frame none }
    ∧ exec (.quiet4C f) s = .next { s with reply := .frame none }
    ∧ (f.command = 0x05#8 → select s.params f = .signalCheck f)
    ∧ (f.command = 0x09#8 → select s.params f = .alarm f)
    ∧ (f.command = 0x48#8 → select s.params f = .quiet48 f)
    ∧ (f.command = 0x4C#8 → select s.params f = .quiet4C f)

/-- R166, R169, R170, R171, with each row's code. -/
def Obligations.FixedTextResults : Prop :=
  ∀ (f : Frame) (s : State),
    exec (.initStatus f) s = .next { s with reply := .frame (some (ascii "Initialization Status")) }
    ∧ exec (.deepSleep f) s = .next { s with reply := .frame (some (ascii "Deep Sleep Mode")) }
    ∧ exec (.setAlarmCfg f) s = .next { s with reply := .frame (some (ascii "Set Alarm Configuration")) }
    ∧ (f.direction = 0x01#8 →
        exec (.wakeUp f) s = .next { s with reply := .frame (some (ascii "Wake Up")) })
    ∧ (f.direction ≠ 0x01#8 →
        exec (.wakeUp f) s = .next { s with reply := .frame (miss s.params f) })
    ∧ (f.command = 0x1A#8 → select s.params f = .initStatus f)
    ∧ (f.command = 0x42#8 → select s.params f = .deepSleep f)
    ∧ (f.command = 0x45#8 → select s.params f = .setAlarmCfg f)
    ∧ (f.command = 0x3E#8 → exec (select s.params f) s = exec (.wakeUp f) s)

/-- R165: the level name by payload byte 0; every value from 3 up is "Level 3"; its code. -/
def Obligations.PowerSaveResult : Prop :=
  ∀ (f : Frame) (s : State),
    (∀ v, f.direction = 0x01#8 → f.payload = [v] →
      exec (.setPowerSave f) s =
        .next { s with reply := .frame (some (ascii "Set Power Saving Mode to " ++
          (if v = 0#8 then ascii "Off" else if v = 1#8 then ascii "Level 1"
            else if v = 2#8 then ascii "Level 2" else ascii "Level 3"))) })
    ∧ (f.direction ≠ 0x01#8 ∨ f.payload.length ≠ 1 →
      exec (.setPowerSave f) s = .next { s with reply := .frame (miss s.params f) })
    ∧ (f.command = 0x0C#8 → exec (select s.params f) s = exec (.setPowerSave f) s)

/-- R162, with the label of R141 and the identifiers in the order `CALL06_ORDER` says (the spec's own reading D8, log entry 6). -/
def Obligations.CallStateResult : Prop :=
  ∀ (f : Frame) (s : State), f.direction = s.params.dirUpload →
    (∀ k a0 a1 a2 a3 b0 b1 b2 b3 : Byte, f.payload = [k, a0, a1, a2, a3, b0, b1, b2, b3] →
      exec (.callState f) s = .next { s with reply := .frame (some
        ((if k = 1#8 then ascii "Private" else if k = 2#8 then ascii "Group" else ascii "All")
          ++ ascii " call started from "
          ++ (match s.params.call06Order with
              | .wireOrder => hexcat [a0, a1, a2, a3] ++ ascii " to " ++ hexcat [b0, b1, b2, b3]
              | .like62 => hexcat [b0, b1, b2, b3] ++ ascii " to " ++ hexcat [a0, a1, a2, a3]))) })
    ∧ (f.payload.length ≠ 9 → f.payload.length < 256 →
      exec (.callState f) s = .next { s with reply := .frame (some (ascii "Call ended")) })

/-- R167 (width by `FW_HEX_WIDTH`, D10, log entry 8) and R168 (no separator, D11, log entry 25). -/
def Obligations.FirmwareAndLocalIdResult : Prop :=
  ∀ (f : Frame) (s : State) (b0 b1 b2 b3 : Byte), f.payload = [b0, b1, b2, b3] →
    (f.direction = s.params.dirToHost → s.params.fwHexWidth = .two →
      exec (.firmware f) s = .next { s with reply := .frame (some (ascii "Firmware: " ++ hex2 b0 ++ ascii "."
        ++ hex2 b1 ++ ascii "." ++ hex2 b2 ++ ascii "." ++ hex2 b3)) })
    ∧ (f.direction = s.params.dirToHost → s.params.fwHexWidth = .min →
      exec (.firmware f) s = .next { s with reply := .frame (some (ascii "Firmware: " ++ hexMin b0 ++ ascii "."
        ++ hexMin b1 ++ ascii "." ++ hexMin b2 ++ ascii "." ++ hexMin b3)) })
    ∧ (f.direction = 0x01#8 →
      exec (.setLocalId f) s = .next { s with reply := .frame (some (ascii "Set Local ID: "
        ++ hexcat [b3, b2, b1, b0])) })

/-- R175; with an empty payload the frame completes with SOME event, of which nothing is said (D14, log entry 11). -/
def Obligations.ChannelStateResult : Prop :=
  ∀ (f : Frame) (s : State), f.direction = s.params.dirUpload →
    (∀ v rest, f.payload = v :: rest →
      exec (.channelState f) s = .next { s with reply := .frame (some
        (if v = 0#8 then ascii "Channel is Idle" else ascii "Channel is Busy")) })
    ∧ (f.payload = [] → ∃ e, exec (.channelState f) s = .next { s with reply := .frame e })

/-- R176, in-band dump: one space before each of the 34 bytes (D12, log entry 9). -/
def Obligations.InBandDumpResult : Prop :=
  ∀ (f : Frame) (s : State) (v : Byte) (rest : List Byte), f.payload = v :: rest → rest.length = 33 → v ≠ 2#8 →
    exec (.inBand f) s = .next { s with reply := .frame (some
      (ascii "In Band:" ++ (v :: rest).flatMap (fun b => 0x20#8 :: hex2 b))) }

/-- R176, talker alias of byte encodings and of unlisted encodings; the text starts at payload byte 3 and the count is capped by
the 31 bytes left (D12, log entry 9). -/
def Obligations.TalkerAliasByteResult : Prop :=
  ∀ (f : Frame) (s : State) (enc count : Byte) (t : List Byte),
    f.payload = 2#8 :: enc :: count :: t → t.length = 31 →
    (enc = 0#8 ∨ enc = 2#8 →
      exec (.inBand f) s = .next { s with reply := .frame (some
        (ascii "Talker Alias(" ++ dec enc.toNat ++ ascii "): " ++ t.take count.toNat)) })
    ∧ (enc = 1#8 →
      exec (.inBand f) s = .next { s with reply := .frame (some
        (ascii "Talker Alias(1): " ++ (t.take count.toNat).flatMap (fun b => utf8 b.toNat))) })
    ∧ (4 ≤ enc.toNat →
      exec (.inBand f) s = .next { s with reply := .frame (match s.params.aliasOther with
          | .emptyText => some (ascii "Talker Alias(" ++ dec enc.toNat ++ ascii "): ")
          | .noOutput => none
          | .rawDump => dump f) })

/-- R176, encoding 3: big-endian code units, at most the 15 whole units that remain, each converted on its own (D12). -/
def Obligations.TalkerAliasUcs2Result : Prop :=
  ∀ (f : Frame) (s : State) (count last : Byte) (units : List (Byte × Byte)), units.length = 15 →
    f.payload = 2#8 :: 3#8 :: count :: (units.flatMap (fun u => [u.1, u.2]) ++ [last]) →
    exec (.inBand f) s = .next { s with reply := .frame (some
      (ascii "Talker Alias(3): "
        ++ (units.take count.toNat).flatMap (fun u => utf8 (u.1.toNat * 256 + u.2.toNat)))) }

/-- R177 (label mapping D15, log entry 25). -/
def Obligations.DetectedCallResult : Prop :=
  ∀ (f : Frame) (s : State) (k d0 d1 d2 d3 s0 s1 s2 s3 cc : Byte),
    f.payload = [k, d0, d1, d2, d3, s0, s1, s2, s3, cc] →
    exec (.detectedCall f) s = .next { s with reply := .frame (some
      (ascii "Detected "
        ++ (if k = 1#8 then ascii "Private" else if k = 2#8 then ascii "Group" else ascii "All")
        ++ ascii " call from " ++ hexcat [s0, s1, s2, s3] ++ ascii " to " ++ hexcat [d0, d1, d2, d3]
        ++ ascii " in CC" ++ dec cc.toNat)) }

/-- R178 (layout and separator D9, log entry 7): the key cut to its length by type and spelled in hex by `KEY_HEX_SEP`; an
unlisted type gives no output. -/
def Obligations.SetKeyResult : Prop :=
  ∀ (f : Frame) (s : State) (q ty : Byte) (key : List Byte), f.direction = 0x01#8 →
    f.payload = q :: ty :: key → 5 ≤ key.length →
    let spell : List Byte → Text := fun k =>
      match s.params.keyHexSep with
      | .none => hexcat k
      | .space => hexsp k
    exec (.setKey f) s = .next { s with reply := .frame (
        if ty = 0#8 then some (ascii "Set key: Seq " ++ dec q.toNat ++ ascii ", OFF")
        else if ty = 1#8 then
          some (ascii "Set key: Seq " ++ dec q.toNat ++ ascii ", ARC = " ++ spell (key.take 5))
        else if ty = 4#8 then
          some (ascii "Set key: Seq " ++ dec q.toNat ++ ascii ", AES128 = " ++ spell (key.take 16))
        else if ty = 5#8 then
          some (ascii "Set key: Seq " ++ dec q.toNat ++ ascii ", AES256 = " ++ spell (key.take 32))
        else none) }

/-- R179 (all four numbers in decimal, D16, log entry 24); payload byte 2 and bytes 11 to 19 do not show. -/
def Obligations.SetChannelResult : Prop :=
  ∀ (f : Frame) (s : State) (ts cc b2 r0 r1 r2 r3 t0 t1 t2 t3 : Byte) (rest : List Byte),
    f.direction = 0x01#8 →
    f.payload = ts :: cc :: b2 :: r0 :: r1 :: r2 :: r3 :: t0 :: t1 :: t2 :: t3 :: rest → rest.length = 9 →
    exec (.setChannel f) s = .next { s with reply := .frame (some
      (ascii "Set Channel: TS" ++ dec ts.toNat ++ ascii " CC" ++ dec cc.toNat
        ++ ascii " RX " ++ dec (r0.toNat * 2 ^ 24 + r1.toNat * 2 ^ 16 + r2.toNat * 2 ^ 8 + r3.toNat)
        ++ ascii " TX " ++ dec (t0.toNat * 2 ^ 24 + t1.toNat * 2 ^ 16 + t2.toNat * 2 ^ 8 + t3.toNat))) }

/-- R180 (whole entries only, no leading zeros, D13, log entry 25): the entries that the count asks for and that fit. -/
def Obligations.SetGroupListResult : Prop :=
  ∀ (f : Frame) (s : State), f.direction = 0x01#8 →
    (f.payload.length < 5 →
      exec (.setGroupList f) s = .next { s with reply := .frame (some (ascii "Cleared group list")) })
    ∧ (∀ (count : Byte) (ids : List (Byte × Byte × Byte × Byte)) (left : List Byte),
        f.payload = count :: (ids.flatMap (fun e => [e.1, e.2.1, e.2.2.1, e.2.2.2]) ++ left) →
        ids ≠ [] → left.length < 4 →
        exec (.setGroupList f) s = .next { s with reply := .frame (some (ascii "Set group list:"
          ++ (ids.take count.toNat).flatMap
              (fun e => ascii " " ++ dec (decodeBcdId [e.1, e.2.1, e.2.2.1, e.2.2.2])))) })

/-- R139 (the spec's decision D5: the parameter `FILTER_MISS`, log entry 5). -/
def Obligations.FilterMissResult : Prop :=
  ∀ (f : Frame) (s : State),
    (s.params.filterMiss = .rawDump → exec (.filterMiss f) s = .next { s with reply := .frame (dump f) })
    ∧ (s.params.filterMiss = .noOutput → exec (.filterMiss f) s = .next { s with reply := .frame none })
    ∧ exec (.filterMiss f) s = .next { s with reply := .frame (miss s.params f) }

/-- The filters of R70 (D5, log entry 5): on a frame whose direction or length a row does not admit, the row gives `miss`. -/
def Obligations.FilteredRowsGiveTheMiss : Prop :=
  ∀ (f : Frame) (s : State),
    (f.direction ≠ 0x01#8 →
      ∀ i ∈ [Instr.setRxVolume f, .setMicGain f, .setPowerSave f, .setLocalId f, .wakeUp f, .setSquelch f,
              .setKey f, .setChannel f, .setGroupList f],
        exec i s = .next { s with reply := .frame (miss s.params f) })
    ∧ (f.direction ≠ s.params.dirUpload →
      ∀ i ∈ [Instr.callState f, .channelState f], exec i s = .next { s with reply := .frame (miss s.params f) })
    ∧ (f.direction ≠ s.params.dirToHost →
      exec (.firmware f) s = .next { s with reply := .frame (miss s.params f) })
    ∧ (f.payload.length ≠ 1 →
      ∀ i ∈ [Instr.setRxVolume f, .setMicGain f, .setPowerSave f, .setSquelch f],
        exec i s = .next { s with reply := .frame (miss s.params f) })
    ∧ (f.payload.length ≠ 4 →
      ∀ i ∈ [Instr.firmware f, .setLocalId f], exec i s = .next { s with reply := .frame (miss s.params f) })
    ∧ (f.payload.length ≠ 34 → exec (.inBand f) s = .next { s with reply := .frame (miss s.params f) })
    ∧ (f.payload.length ≠ 10 → exec (.detectedCall f) s = .next { s with reply := .frame (miss s.params f) })
    ∧ (f.payload.length < 7 → exec (.setKey f) s = .next { s with reply := .frame (miss s.params f) })
    ∧ (f.payload.length ≠ 20 → exec (.setChannel f) s = .next { s with reply := .frame (miss s.params f) })

/-- R181 with the dump of R138: every code that is not listed is dumped: command to end of payload in hex, joined by one space;
never empty. That bytes 4 and 5 print as received is the spec's own decision D6 (log entry 19). -/
def Obligations.RawDumpResult : Prop :=
  ∀ (f : Frame) (s : State), f.payload.length < 256 →
    ∃ text : Text,
      exec (.rawDump f) s = .next { s with reply := .frame (some text) }
      ∧ dump f = some text
      ∧ text = hexsp (f.command :: f.direction :: f.sequence :: f.check4 :: f.check5
          :: 0x00#8 :: BitVec.ofNat 8 f.payload.length :: f.payload)
      ∧ text.length = 3 * (7 + f.payload.length) - 1
      ∧ (f.command ∉ listedCodes → select s.params f = .rawDump f)

/-! ### Text and operands -/

/-- R13 (the spelling is the spec's choice D7, log entry 24): `dec` spells the number in decimal digits without padding,
and 0 as the one digit 0. -/
def Obligations.DecimalSpellingIsShortest : Prop :=
  ∀ v : Nat,
    (dec v).foldl (fun n b => n * 10 + (b.toNat - 0x30)) 0 = v
    ∧ (∀ b ∈ dec v, 0x30 ≤ b.toNat ∧ b.toNat ≤ 0x39)
    ∧ dec v ≠ [] ∧ (v ≠ 0 → (dec v).head? ≠ some 0x30#8) ∧ dec 0 = [0x30#8]

/-- R13 (the spelling is the spec's choice D7, log entry 24): `hex2` is two uppercase hexadecimal digits that give the byte back;
`hexMin` (R167, D10, log entry 8) is the same without a leading zero; `hexcat` puts the bytes' spellings together with nothing
between, `hexsp` with one space. -/
def Obligations.HexSpellingGivesTheByteBack : Prop :=
  (∀ b : Byte, ∃ h l : Byte, hex2 b = [h, l]
    ∧ (∀ c ∈ [h, l], (0x30 ≤ c.toNat ∧ c.toNat ≤ 0x39) ∨ (0x41 ≤ c.toNat ∧ c.toNat ≤ 0x46))
    ∧ (if h.toNat ≤ 0x39 then h.toNat - 0x30 else h.toNat - 0x37) * 16
        + (if l.toNat ≤ 0x39 then l.toNat - 0x30 else l.toNat - 0x37) = b.toNat)
  ∧ (∀ b : Byte, hexMin b = if b.toNat < 16 then (hex2 b).drop 1 else hex2 b)
  ∧ (∀ bs : List Byte, hexcat bs = (bs.map hex2).flatten ∧ hexsp bs = [0x20#8].intercalate (bs.map hex2))

/-- R13 (the bit layout is presumed, G3, log entry 29): the one, two or three bytes of `utf8` for a code unit, and no two code
units have one spelling. -/
def Obligations.Utf8SpellingDeterminesTheUnit : Prop :=
  (∀ c : Nat, c < 0x80 → (utf8 c).map BitVec.toNat = [c])
  ∧ (∀ c : Nat, 0x80 ≤ c → c < 0x800 → (utf8 c).map BitVec.toNat = [0xC0 + c / 64, 0x80 + c % 64])
  ∧ (∀ c : Nat, 0x800 ≤ c → c < 65536 →
      (utf8 c).map BitVec.toNat = [0xE0 + c / 4096, 0x80 + c / 64 % 64, 0x80 + c % 64])
  ∧ (∀ c : Nat, (utf8 c).length = if c < 0x80 then 1 else if c < 0x800 then 2 else 3)
  ∧ (∀ c d : Nat, c < 65536 → d < 65536 → utf8 c = utf8 d → c = d)

/-- R140: the nibbles of a packed identifier weigh as decimal digits, most significant first; that nibbles above 9 go through the
formula as written is the spec's decision D13 (log entry 25), and they stay at or below 166666665. -/
def Obligations.BcdIdentifierValue : Prop :=
  (∀ b0 b1 b2 b3 : Byte, decodeBcdId [b0, b1, b2, b3] ≤ 166666665)
  ∧ (∀ d7 d6 d5 d4 d3 d2 d1 d0 : Nat,
      d7 ≤ 15 → d6 ≤ 15 → d5 ≤ 15 → d4 ≤ 15 → d3 ≤ 15 → d2 ≤ 15 → d1 ≤ 15 → d0 ≤ 15 →
      decodeBcdId [BitVec.ofNat 8 (16 * d7 + d6), BitVec.ofNat 8 (16 * d5 + d4),
          BitVec.ofNat 8 (16 * d3 + d2), BitVec.ofNat 8 (16 * d1 + d0)]
        = d7 * 10 ^ 7 + d6 * 10 ^ 6 + d5 * 10 ^ 5 + d4 * 10 ^ 4 + d3 * 10 ^ 3 + d2 * 10 ^ 2 + d1 * 10 + d0)

/-- R64, R136: under the constraints of R7 the direction predicates are the decoded direction, and any other byte is `Other`. -/
def Obligations.DirectionPredicatesDecodeTheByte : Prop :=
  ∀ (p : Params) (f : Frame), p.WF →
    (f.isToDevice = true ↔ decodeDirection p f.direction = .toDevice)
    ∧ (f.isToHost p = true ↔ decodeDirection p f.direction = .toHost)
    ∧ (f.isUpload p = true ↔ decodeDirection p f.direction = .upload)
    ∧ (decodeDirection p f.direction = .other f.direction
        ↔ f.isToDevice = false ∧ f.isToHost p = false ∧ f.isUpload p = false)

/-! ### Whole machine -/

/-- R135, R48, frame of all 23 rows: an instruction completes and changes nothing but the reply. -/
def Obligations.EveryInstructionOnlyReplies : Prop :=
  ∀ (i : Instr) (s : State), ∃ e : Option Text, exec i s = .next { s with reply := .frame e }

/-- R30: no operation of the host, and so no step, writes the open parameters. -/
def Obligations.StepNeverWritesTheParameters : Prop :=
  (∀ s t : State, step s = .next t → t.params = s.params)
  ∧ (∀ (s t : State) (op : HostOp), perform op s = .next t → t.params = s.params)

/-- R33, R222, R7: every step, and every operation the host may put between two steps, keeps the state invariant. -/
def Obligations.StepKeepsTheInvariant : Prop :=
  (∀ s t : State, s.Inv → step s = .next t → t.Inv)
  ∧ (∀ (s t : State) (op : HostOp), s.Inv → perform op s = .next t → t.Inv)

/-- The reset state meets the invariant (its parameters are the defaults, log entry 3). -/
def Obligations.ResetMeetsTheInvariant : Prop := State.reset.Inv
end

