-- ==== Sys2Proof/Laws/Bytes.lean ====
section
/-! SUPPORT. Reads over byte sequences: `byteAt`, `slice`, the head search. -/

namespace Sys2Proof.Machine

@[simp] theorem byteAt_cons_zero (b : Byte) (bs : List Byte) : byteAt (b :: bs) 0 = b := rfl

@[simp] theorem byteAt_cons_succ (b : Byte) (bs : List Byte) (i : Nat) : byteAt (b :: bs) (i + 1) = byteAt bs i := rfl

theorem byteAt_append_left {s : List Byte} (t : List Byte) {i : Nat} (h : i < s.length) :
    byteAt (s ++ t) i = byteAt s i := by
  simp [byteAt, List.getElem?_append_left h]

theorem byteAt_take {s : List Byte} {i n : Nat} (h : i < n) : byteAt (s.take n) i = byteAt s i := by
  simp [byteAt, h]

theorem byteAt_eq_getElem {s : List Byte} {i : Nat} (h : i < s.length) : byteAt s i = s[i] := by
  simp [byteAt, h]

theorem rd16_append_left {s : List Byte} (t : List Byte) {o : Nat} (h : o + 1 < s.length) :
    rd16 (s ++ t) o = rd16 s o := by
  simp [rd16, byteAt_append_left t h, byteAt_append_left t (Nat.lt_of_succ_lt h)]

theorem rd16_lt (s : List Byte) (o : Nat) : rd16 s o < 65536 := by
  have h1 := (byteAt s o).isLt
  have h2 := (byteAt s (o + 1)).isLt
  simp only [rd16]
  omega

/-- A number below 256 is its low byte, and its high byte is 0. -/
theorem hiByte_of_lt {v : Nat} (h : v < 256) : hiByte v = 0#8 := by
  simp [hiByte, Nat.div_eq_of_lt h]

theorem loByte_toNat {v : Nat} (h : v < 256) : (loByte v).toNat = v := by
  simp [loByte, Nat.mod_eq_of_lt h]

theorem slice_append_left {s : List Byte} (t : List Byte) {a b : Nat} (h : b ≤ s.length) :
    slice (s ++ t) a b = slice s a b := by
  simp [slice, List.take_append_of_le_length h]

/-! The head search. -/

theorem findByte_eq_none {v : Byte} {s : List Byte} : findByte v s = none ↔ v ∉ s := by
  induction s with
  | nil => simp [findByte]
  | cons b bs ih =>
    by_cases hb : b = v
    · simp [findByte, hb]
    · simp [findByte, hb, ih, Ne.symm hb]

/-- The offset found is that of the first `v`. -/
theorem findByte_noise {v : Byte} {noise rest : List Byte} (h : v ∉ noise) :
    findByte v (noise ++ v :: rest) = some noise.length := by
  induction noise with
  | nil => simp [findByte]
  | cons b bs ih =>
    simp only [List.mem_cons, not_or] at h
    simp [findByte, Ne.symm h.1, ih h.2]

/-- What an offset found says of the sequence. -/
theorem findByte_eq_some {v : Byte} {s : List Byte} {k : Nat} (h : findByte v s = some k) :
    ∃ noise rest, s = noise ++ v :: rest ∧ noise.length = k ∧ v ∉ noise := by
  induction s generalizing k with
  | nil => simp [findByte] at h
  | cons b bs ih =>
    by_cases hb : b = v
    · simp only [findByte, hb, ↓reduceIte, Option.some.injEq] at h
      exact ⟨[], bs, by simp [hb], by simp [h], by simp⟩
    · simp only [findByte, hb, ↓reduceIte, Option.map_eq_some_iff] at h
      obtain ⟨j, hj, rfl⟩ := h
      obtain ⟨noise, rest, rfl, rfl, hn⟩ := ih hj
      exact ⟨b :: noise, rest, by simp, by simp, by simp [hn, Ne.symm hb]⟩

end Sys2Proof.Machine
end

