-- ==== Sys2Proof/Laws/Frame.lean ====
section
/-! SUPPORT. The bytes of a frame record, field by field, and reading the record back. -/

namespace Sys2Proof

open Machine

variable (f : Frame) (rest : List Byte)

@[simp] theorem Frame.bytes_length : f.bytes.length = 9 + f.len := by
  simp [Frame.bytes, Frame.len]; omega

/-- The bytes of a frame with anything after it, written out. -/
theorem Frame.bytes_append :
    f.bytes ++ rest = headByte :: f.command :: f.direction :: f.sequence :: f.check4 :: f.check5
      :: hiByte f.len :: loByte f.len :: (f.payload ++ tailByte :: rest) := by
  simp [Frame.bytes]

@[simp] theorem Frame.byteAt_0 : byteAt (f.bytes ++ rest) 0 = headByte := by rw [f.bytes_append]; rfl
@[simp] theorem Frame.byteAt_1 : byteAt (f.bytes ++ rest) 1 = f.command := by rw [f.bytes_append]; rfl
@[simp] theorem Frame.byteAt_2 : byteAt (f.bytes ++ rest) 2 = f.direction := by rw [f.bytes_append]; rfl
@[simp] theorem Frame.byteAt_3 : byteAt (f.bytes ++ rest) 3 = f.sequence := by rw [f.bytes_append]; rfl
@[simp] theorem Frame.byteAt_4 : byteAt (f.bytes ++ rest) 4 = f.check4 := by rw [f.bytes_append]; rfl
@[simp] theorem Frame.byteAt_5 : byteAt (f.bytes ++ rest) 5 = f.check5 := by rw [f.bytes_append]; rfl

theorem Frame.rd16_6 (h : f.len < 256) : rd16 (f.bytes ++ rest) 6 = f.len := by
  rw [f.bytes_append]
  simp [rd16, hiByte_of_lt h, loByte_toNat h]

@[simp] theorem Frame.byteAt_tail : byteAt (f.bytes ++ rest) (8 + f.len) = tailByte := by
  rw [f.bytes_append, Nat.add_comm 8]
  simp [byteAt, Frame.len]

@[simp] theorem Frame.take_bytes : (f.bytes ++ rest).take (9 + f.len) = f.bytes := by
  rw [List.take_append_of_le_length (by simp), List.take_of_length_le (by simp)]

@[simp] theorem Frame.drop_bytes : (f.bytes ++ rest).drop (9 + f.len) = rest := by
  rw [← f.bytes_length, List.drop_left]

/-- Reading a frame's bytes gives the record back. -/
theorem Frame.parse_bytes (h : f.len < 256) : parseFrame f.bytes = f := by
  have e : f.bytes ++ [] = f.bytes := List.append_nil _
  have hp : slice f.bytes 8 (8 + f.len) = f.payload := by
    rw [← e, f.bytes_append]
    simp [slice, Frame.len, Nat.add_comm 8]
  have hr := f.rd16_6 [] h
  have h1 := f.byteAt_1 []
  have h2 := f.byteAt_2 []
  have h3 := f.byteAt_3 []
  have h4 := f.byteAt_4 []
  have h5 := f.byteAt_5 []
  rw [e] at hr h1 h2 h3 h4 h5
  simp only [parseFrame, hr, h1, h2, h3, h4, h5, hp]

/-- The neutralised copy of a frame's bytes is the bytes of the neutralised frame. -/
@[simp] theorem Frame.neutralCopy_bytes : neutralCopy f.bytes = f.neutral.bytes := rfl

@[simp] theorem Frame.neutral_len : f.neutral.len = f.len := rfl

/-- Nine bytes or more, written out. -/
theorem eight_then_body (b : List Byte) (h : 9 ≤ b.length) :
    ∃ b0 b1 b2 b3 b4 b5 b6 b7 body, b = b0 :: b1 :: b2 :: b3 :: b4 :: b5 :: b6 :: b7 :: body := by
  rcases b with _ | ⟨b0, _ | ⟨b1, _ | ⟨b2, _ | ⟨b3, _ | ⟨b4, _ | ⟨b5, _ | ⟨b6, _ | ⟨b7, body⟩⟩⟩⟩⟩⟩⟩⟩
  case cons.cons.cons.cons.cons.cons.cons.cons => exact ⟨b0, b1, b2, b3, b4, b5, b6, b7, body, rfl⟩
  all_goals simp at h

/-- A complete candidate is the bytes of the record read from it. -/
theorem parse_bytes_eq {b : List Byte} (hN : rd16 b 6 < 256) (hL : b.length = 9 + rd16 b 6)
    (hh : byteAt b 0 = headByte) (ht : byteAt b (8 + rd16 b 6) = tailByte) :
    (parseFrame b).bytes = b := by
  obtain ⟨b0, b1, b2, b3, b4, b5, b6, b7, body, rfl⟩ := eight_then_body b (by omega)
  have hb6 : b6 = 0#8 := by
    have := b6.isLt
    simp only [rd16, byteAt_cons_succ, byteAt_cons_zero] at hN
    apply BitVec.eq_of_toNat_eq
    simp; omega
  subst hb6
  have hr : rd16 (b0 :: b1 :: b2 :: b3 :: b4 :: b5 :: 0#8 :: b7 :: body) 6 = b7.toNat := by simp [rd16]
  rw [hr] at hL ht
  simp only [byteAt_cons_zero] at hh
  subst hh
  have hlen : body.length = b7.toNat + 1 := by simp at hL; omega
  have htail : byteAt body b7.toNat = tailByte := by
    rw [Nat.add_comm] at ht; simpa using ht
  have hsplit : body.take b7.toNat ++ [tailByte] = body := by
    have hlt : b7.toNat < body.length := by omega
    rw [byteAt_eq_getElem hlt] at htail
    rw [← htail, List.take_append_getElem hlt, List.take_of_length_le (by omega)]
  have hpay : slice (headByte :: b1 :: b2 :: b3 :: b4 :: b5 :: 0#8 :: b7 :: body) 8 (8 + b7.toNat)
      = body.take b7.toNat := by
    simp [slice, Nat.add_comm 8]
  have htake : (body.take b7.toNat).length = b7.toNat := by simp; omega
  have hlo : loByte b7.toNat = b7 := by simp [loByte]
  simp only [parseFrame, hr, hpay, Frame.bytes, Frame.len, htake, hlo, hiByte_of_lt b7.isLt]
  simp [hsplit]

end Sys2Proof
end

