-- ==== Sys2Proof/Laws/State.lean ====
section
/-! SUPPORT. One lemma per field per update of the state. -/

namespace Sys2Proof.Machine

variable (s : State) (r : Reply) (b : List Byte) (n : Nat)

@[simp] theorem State.answer_acc : (s.answer r).acc = s.acc := rfl
@[simp] theorem State.answer_consumed : (s.answer r).consumed = s.consumed := rfl
@[simp] theorem State.answer_session : (s.answer r).session = s.session := rfl
@[simp] theorem State.answer_reply : (s.answer r).reply = r := rfl
@[simp] theorem State.answer_params : (s.answer r).params = s.params := rfl

@[simp] theorem State.append_acc : (s.append b).acc = s.acc ++ b := rfl
@[simp] theorem State.append_consumed : (s.append b).consumed = s.consumed := rfl
@[simp] theorem State.append_session : (s.append b).session = s.session := rfl
@[simp] theorem State.append_reply : (s.append b).reply = s.reply := rfl
@[simp] theorem State.append_params : (s.append b).params = s.params := rfl

@[simp] theorem State.dropFront_acc : (s.dropFront n).acc = s.acc.drop n := rfl
@[simp] theorem State.dropFront_consumed : (s.dropFront n).consumed = s.consumed + n := rfl
@[simp] theorem State.dropFront_session : (s.dropFront n).session = s.session := rfl
@[simp] theorem State.dropFront_reply : (s.dropFront n).reply = s.reply := rfl
@[simp] theorem State.dropFront_params : (s.dropFront n).params = s.params := rfl

@[simp] theorem State.needMoreData_reply : s.needMoreData.reply = .needMoreData := rfl
@[simp] theorem State.needMoreData_acc : s.needMoreData.acc = s.acc := rfl
@[simp] theorem State.needMoreData_consumed : s.needMoreData.consumed = s.consumed := rfl
@[simp] theorem State.needMoreData_session : s.needMoreData.session = s.session := rfl
@[simp] theorem State.needMoreData_params : s.needMoreData.params = s.params := rfl

@[simp] theorem State.resynchronize_reply : s.resynchronize.reply = .resynchronized := rfl
@[simp] theorem State.resynchronize_acc : s.resynchronize.acc = s.acc.drop 1 := rfl
@[simp] theorem State.resynchronize_consumed : s.resynchronize.consumed = s.consumed + 1 := rfl
@[simp] theorem State.resynchronize_session : s.resynchronize.session = s.session := rfl
@[simp] theorem State.resynchronize_params : s.resynchronize.params = s.params := rfl

end Sys2Proof.Machine
end

