-- ==== Sys2Proof/Laws/Memory.lean ====
section
/-! SUPPORT. The accumulator as cells of (stream offset, byte): the canonical form holds of every state, and each memory
operation is what it should be on the cells. -/

namespace Sys2Proof.Machine

theorem zipIdx_offsets_rise (l : List Byte) (n : Nat) :
    Memory.wf ((l.zipIdx n).map (fun c => (c.2, c.1))) := by
  induction l generalizing n with
  | nil => simp
  | cons b bs ih =>
    simp only [List.zipIdx_cons, List.map_cons, List.pairwise_cons]
    refine ⟨?_, ih (n + 1)⟩
    intro c hc
    simp only [List.mem_map, Prod.exists] at hc
    obtain ⟨x, i, hmem, rfl⟩ := hc
    have := List.mem_zipIdx hmem
    simp only
    omega

/-- The cells of every state are in canonical form: stream offsets strictly rising. -/
theorem State.cells_wf (s : State) : Memory.wf s.cells := zipIdx_offsets_rise s.acc s.consumed

theorem State.reset_cells : State.reset.cells = [] := rfl

theorem State.append_cells (s : State) (b : List Byte) :
    (s.append b).cells = s.cells ++ (b.zipIdx (s.consumed + s.acc.length)).map (fun c => (c.2, c.1)) := by
  simp [State.cells, List.zipIdx_append]

theorem State.append_wf (s : State) (b : List Byte) : Memory.wf (s.append b).cells := (s.append b).cells_wf

theorem drop_zipIdx_eq (l : List Byte) (n k : Nat) : (l.drop n).zipIdx (k + n) = (l.zipIdx k).drop n := by
  induction n generalizing l k with
  | zero => simp
  | succ n ih =>
    cases l with
    | nil => simp
    | cons b bs =>
      have := ih bs (k + 1)
      simp only [List.drop_succ_cons, List.zipIdx_cons]
      rw [← this, Nat.add_right_comm, Nat.add_assoc]

/-- Dropping from the front removes the first cells and renumbers none. -/
theorem State.dropFront_cells (s : State) (n : Nat) : (s.dropFront n).cells = s.cells.drop n := by
  simp [State.cells, drop_zipIdx_eq]

theorem State.dropFront_wf (s : State) (n : Nat) : Memory.wf (s.dropFront n).cells := (s.dropFront n).cells_wf

/-- A byte that stays is the byte it was. -/
@[simp] theorem State.dropFront_read (s : State) (n a : Nat) : (s.dropFront n).read a = s.read (n + a) := by
  simp [State.read]

theorem State.append_read (s : State) (b : List Byte) (a : Nat) (h : a < s.acc.length) :
    (s.append b).read a = s.read a := by
  simp [State.read, List.getElem?_append_left h]

@[simp] theorem State.answer_read (s : State) (r : Reply) (a : Nat) : (s.answer r).read a = s.read a := rfl

end Sys2Proof.Machine
end

