-- ==== Sys2Proof/Laws/PerInstr.lean ====
section
/-! SUPPORT. Statements per instruction, as syntax: the shape of an encoding (R60, R67). -/

namespace Sys2Proof.Laws.EncodedShape

open Sys2Proof Sys2Proof.Machine

/-- The encoding of `i` starts with the head sentinel, ends with the tail sentinel, and has nine bytes more than its payload. -/
def Statement (i : Instr) : Prop :=
  (encode i).head? = some headByte ∧ (encode i).getLast? = some tailByte
    ∧ (encode i).length = 9 + i.frame.payload.length

theorem shape_of_frame (f : Frame) :
    f.bytes.head? = some headByte ∧ f.bytes.getLast? = some tailByte ∧ f.bytes.length = 9 + f.payload.length :=
  ⟨rfl, by rw [Frame.bytes, List.getLast?_append]; rfl, f.bytes_length⟩

theorem setRxVolume (f : Frame) : Statement (.setRxVolume f) := shape_of_frame f

theorem signalCheck (f : Frame) : Statement (.signalCheck f) := shape_of_frame f

theorem callState (f : Frame) : Statement (.callState f) := shape_of_frame f

theorem alarm (f : Frame) : Statement (.alarm f) := shape_of_frame f

theorem setMicGain (f : Frame) : Statement (.setMicGain f) := shape_of_frame f

theorem setPowerSave (f : Frame) : Statement (.setPowerSave f) := shape_of_frame f

theorem initStatus (f : Frame) : Statement (.initStatus f) := shape_of_frame f

theorem firmware (f : Frame) : Statement (.firmware f) := shape_of_frame f

theorem setLocalId (f : Frame) : Statement (.setLocalId f) := shape_of_frame f

theorem wakeUp (f : Frame) : Statement (.wakeUp f) := shape_of_frame f

theorem deepSleep (f : Frame) : Statement (.deepSleep f) := shape_of_frame f

theorem setAlarmCfg (f : Frame) : Statement (.setAlarmCfg f) := shape_of_frame f

theorem quiet48 (f : Frame) : Statement (.quiet48 f) := shape_of_frame f

theorem quiet4C (f : Frame) : Statement (.quiet4C f) := shape_of_frame f

theorem setSquelch (f : Frame) : Statement (.setSquelch f) := shape_of_frame f

theorem channelState (f : Frame) : Statement (.channelState f) := shape_of_frame f

theorem inBand (f : Frame) : Statement (.inBand f) := shape_of_frame f

theorem detectedCall (f : Frame) : Statement (.detectedCall f) := shape_of_frame f

theorem setKey (f : Frame) : Statement (.setKey f) := shape_of_frame f

theorem setChannel (f : Frame) : Statement (.setChannel f) := shape_of_frame f

theorem setGroupList (f : Frame) : Statement (.setGroupList f) := shape_of_frame f

theorem filterMiss (f : Frame) : Statement (.filterMiss f) := shape_of_frame f

theorem rawDump (f : Frame) : Statement (.rawDump f) := shape_of_frame f

end Sys2Proof.Laws.EncodedShape
end

