-- ==== Sys2Proof/Laws/Scanner.lean ====
section
/-! SUPPORT. What each shared operation of the scanner and the session can do: one lemma each. -/

namespace Sys2Proof.Machine

variable {s t : State}

/-- What a scan of a candidate can do. -/
theorem scanCandidate_cases (h : scanCandidate s = .next t) :
    (decode s.params s.acc = .rejected .incomplete ∧ t = s.needMoreData)
    ∨ (∃ c, decode s.params s.acc = .rejected (.invalid c) ∧ t = s.resynchronize)
    ∨ (∃ i L, decode s.params s.acc = .ok i L ∧ exec i (s.dropFront L) = .next t) := by
  unfold scanCandidate at h
  split at h
  · next hd => exact .inl ⟨hd, by injection h with h; exact h.symm⟩
  · next c hd => exact .inr (.inl ⟨c, hd, by injection h with h; exact h.symm⟩)
  · next i L hd => exact .inr (.inr ⟨i, L, hd, h⟩)

theorem scan_noHead (h : headByte ∉ s.acc) : scan s = .next (s.dropFront s.acc.length).needMoreData := by
  simp [scan, State.findHead, findByte_eq_none.2 h]

theorem scan_noise {noise rest : List Byte} (hn : headByte ∉ noise) (h : s.acc = noise ++ headByte :: rest) :
    scan s = scanCandidate (s.dropFront noise.length) := by
  simp [scan, State.findHead, h, findByte_noise hn]

/-- `TRY_EXTRACT_ONE` answers only in a running session. -/
theorem tryExtractOne_running (h : s.session = .running) : tryExtractOne s = scan s := by
  simp [tryExtractOne, h]

theorem tryExtractOne_next_running (h : tryExtractOne s = .next t) : s.session = .running := by
  unfold tryExtractOne State.refuse at h
  split at h
  · assumption
  · cases h
  · cases h

/-- Everything `TRY_EXTRACT_ONE` can do: drop an accumulator without a head; or drop the noise before the first head and wait,
resynchronise, or execute the instruction decoded there. -/
theorem tryExtractOne_cases (h : tryExtractOne s = .next t) :
    (headByte ∉ s.acc ∧ t = (s.dropFront s.acc.length).needMoreData)
    ∨ ∃ noise rest, s.acc = noise ++ headByte :: rest ∧ headByte ∉ noise
        ∧ scanCandidate (s.dropFront noise.length) = .next t
        ∧ (s.dropFront noise.length).acc = headByte :: rest := by
  rw [tryExtractOne_running (tryExtractOne_next_running h)] at h
  cases hk : s.findHead with
  | none =>
    have hn := findByte_eq_none.1 hk
    rw [scan_noHead hn] at h
    injection h with h
    exact .inl ⟨hn, h.symm⟩
  | some k =>
    obtain ⟨noise, rest, he, -, hn⟩ := findByte_eq_some hk
    rw [scan_noise hn he] at h
    exact .inr ⟨noise, rest, he, hn, h, by simp [he]⟩

theorem start_next (h : start s = .next t) :
    s.session ≠ .running ∧ t = { s with acc := [], consumed := 0, session := .running, reply := .silent } := by
  unfold start State.refuse at h
  split at h
  · cases h
  all_goals next hs => injection h with h; exact ⟨by simp [hs], h.symm⟩

theorem feed_next {b : List Byte} (h : feed b s = .next t) :
    s.session = .running ∧ t = (s.append b).answer .silent := by
  unfold feed State.refuse at h
  split at h
  · next hs => injection h with h; exact ⟨hs, h.symm⟩
  all_goals cases h

theorem stop_next (h : stop s = .next t) :
    s.session = .running ∧ t = { s with acc := [], session := .stopped, reply := .silent } := by
  unfold stop State.refuse at h
  split at h
  · next hs => injection h with h; exact ⟨hs, h.symm⟩
  all_goals cases h

/-- A step is `TRY_EXTRACT_ONE`. -/
theorem step_eq (s : State) : step s = tryExtractOne s := rfl

/-- Everything an operation of the host can do when it is admitted. -/
theorem perform_cases {op : HostOp} (h : perform op s = .next t) :
    (op = .start ∧ s.session ≠ .running
        ∧ t = { s with acc := [], consumed := 0, session := .running, reply := .silent })
    ∨ (∃ b, op = .feed b ∧ s.session = .running ∧ t = (s.append b).answer .silent)
    ∨ (op = .tryExtractOne ∧ tryExtractOne s = .next t)
    ∨ (op = .stop ∧ s.session = .running ∧ t = { s with acc := [], session := .stopped, reply := .silent }) := by
  cases op with
  | start => exact .inl ⟨rfl, start_next h⟩
  | feed b => exact .inr (.inl ⟨b, rfl, feed_next h⟩)
  | tryExtractOne => exact .inr (.inr (.inl ⟨rfl, h⟩))
  | stop => exact .inr (.inr (.inr ⟨rfl, stop_next h⟩))

theorem performAll_cons {op : HostOp} {ops : List HostOp} (h : perform op s = .next t) :
    performAll (op :: ops) s = performAll ops t := by
  simp [performAll, h]

end Sys2Proof.Machine
end

