-- ==== Sys2Proof/Tests/Slice0.lean ====
section
/-! SUPPORT. Tests and witnesses. Every expected verdict, text and state comes from spec/95_test_vectors.md (the vector is named)
or from a rule of spec/ (named). A theorem `witness_<Name>` shows that the hypotheses of `Obligations.<Name>` can be met. -/

namespace Sys2Proof.Tests

open Sys2Proof Sys2Proof.Machine

set_option maxRecDepth 8000

/-- A running session that holds these bytes. -/
def holding (bytes : List Byte) : State := { State.reset with acc := bytes }

/-- A session after `STOP`. -/
def stopped : State := { State.reset with session := .stopped }

/-- The next state of an answer. -/
def nextOf (a : Answer) : Option State :=
  match a with
  | .next s => some s
  | .fault _ => none
  | .refused _ => none

/-- The reply in the next state, if the step used all the bytes. -/
def replyOf (a : Answer) : Option Reply :=
  match nextOf a with
  | some s => if s.acc = [] then some s.reply else none
  | none => none

/-- A frame record with the checksum field and the sequence byte at 0. -/
def fr (cmd dir : Byte) (payload : List Byte) : Frame := ⟨cmd, dir, 0x00#8, 0x00#8, 0x00#8, payload⟩

/-! ## Words written out from the spec, one for each row: what they decode to, and what one step on them answers -/

/-- V-02-3. -/
def w_setRxVolume : List Byte :=
  [0x68#8, 0x02#8, 0x01#8, 0x00#8, 0x97#8, 0xEB#8, 0x00#8, 0x01#8, 0xFF#8, 0x10#8]

theorem test_decode_setRxVolume : decode defaultParams w_setRxVolume = .ok (.setRxVolume ⟨0x02#8, 0x01#8, 0x00#8, 0x97#8, 0xEB#8,
      [0xFF#8]⟩) 10 := by decide

theorem test_step_setRxVolume : replyOf (step (holding w_setRxVolume)) = some (.frame (some (ascii "Set RX Volume to 255"))) := by decide

/-- V-05-2. -/
def w_signalCheck : List Byte :=
  [0x68#8, 0x05#8, 0x02#8, 0x33#8, 0x91#8, 0xB2#8, 0x00#8, 0x03#8, 0x01#8, 0x02#8, 0x03#8, 0x10#8]

theorem test_decode_signalCheck : decode defaultParams w_signalCheck = .ok (.signalCheck ⟨0x05#8, 0x02#8, 0x33#8, 0x91#8, 0xB2#8,
      [0x01#8, 0x02#8, 0x03#8]⟩) 12 := by decide

theorem test_step_signalCheck : replyOf (step (holding w_signalCheck)) = some (.frame (none)) := by decide

/-- V-06-1. -/
def w_callState : List Byte :=
  [0x68#8, 0x06#8, 0x02#8, 0x00#8, 0xC1#8, 0xD9#8, 0x00#8, 0x09#8, 0x01#8, 0x00#8, 0x12#8, 0xD6#8, 0x87#8, 0x00#8,
    0x00#8, 0x30#8, 0x39#8, 0x10#8]

theorem test_decode_callState : decode defaultParams w_callState = .ok (.callState ⟨0x06#8, 0x02#8, 0x00#8, 0xC1#8, 0xD9#8,
      [0x01#8, 0x00#8, 0x12#8, 0xD6#8, 0x87#8, 0x00#8, 0x00#8, 0x30#8, 0x39#8]⟩) 18 := by decide

theorem test_step_callState : replyOf (step (holding w_callState)) = some (.frame (some (ascii "Private call started from 0012D687 to 00003039"))) := by decide

/-- V-09-1. -/
def w_alarm : List Byte :=
  [0x68#8, 0x09#8, 0x02#8, 0x07#8, 0x91#8, 0xDA#8, 0x00#8, 0x03#8, 0x01#8, 0x02#8, 0x03#8, 0x10#8]

theorem test_decode_alarm : decode defaultParams w_alarm = .ok (.alarm ⟨0x09#8, 0x02#8, 0x07#8, 0x91#8, 0xDA#8,
      [0x01#8, 0x02#8, 0x03#8]⟩) 12 := by decide

theorem test_step_alarm : replyOf (step (holding w_alarm)) = some (.frame (none)) := by decide

/-- V-0B-1. -/
def w_setMicGain : List Byte :=
  [0x68#8, 0x0B#8, 0x01#8, 0x00#8, 0x91#8, 0xE3#8, 0x00#8, 0x01#8, 0x05#8, 0x10#8]

theorem test_decode_setMicGain : decode defaultParams w_setMicGain = .ok (.setMicGain ⟨0x0B#8, 0x01#8, 0x00#8, 0x91#8, 0xE3#8,
      [0x05#8]⟩) 10 := by decide

theorem test_step_setMicGain : replyOf (step (holding w_setMicGain)) = some (.frame (some (ascii "Set MIC Gain to 5"))) := by decide

/-- V-0C-5. -/
def w_setPowerSave : List Byte :=
  [0x68#8, 0x0C#8, 0x01#8, 0x00#8, 0x97#8, 0xE1#8, 0x00#8, 0x01#8, 0xFF#8, 0x10#8]

theorem test_decode_setPowerSave : decode defaultParams w_setPowerSave = .ok (.setPowerSave ⟨0x0C#8, 0x01#8, 0x00#8, 0x97#8, 0xE1#8,
      [0xFF#8]⟩) 10 := by decide

theorem test_step_setPowerSave : replyOf (step (holding w_setPowerSave)) = some (.frame (some (ascii "Set Power Saving Mode to Level 3"))) := by decide

/-- V-1A-2. -/
def w_initStatus : List Byte :=
  [0x68#8, 0x1A#8, 0x55#8, 0x09#8, 0x31#8, 0xD8#8, 0x00#8, 0x02#8, 0x01#8, 0x02#8, 0x10#8]

theorem test_decode_initStatus : decode defaultParams w_initStatus = .ok (.initStatus ⟨0x1A#8, 0x55#8, 0x09#8, 0x31#8, 0xD8#8,
      [0x01#8, 0x02#8]⟩) 11 := by decide

theorem test_step_initStatus : replyOf (step (holding w_initStatus)) = some (.frame (some (ascii "Initialization Status"))) := by decide

/-- V-25-1. -/
def w_firmware : List Byte :=
  [0x68#8, 0x25#8, 0x00#8, 0x00#8, 0x7C#8, 0xB3#8, 0x00#8, 0x04#8, 0x01#8, 0x00#8, 0x0A#8, 0x23#8, 0x10#8]

theorem test_decode_firmware : decode defaultParams w_firmware = .ok (.firmware ⟨0x25#8, 0x00#8, 0x00#8, 0x7C#8, 0xB3#8,
      [0x01#8, 0x00#8, 0x0A#8, 0x23#8]⟩) 13 := by decide

theorem test_step_firmware : replyOf (step (holding w_firmware)) = some (.frame (some (ascii "Firmware: 01.00.0A.23"))) := by decide

/-- V-2A-2. -/
def w_setLocalId : List Byte :=
  [0x68#8, 0x2A#8, 0x01#8, 0x00#8, 0xCC#8, 0xC4#8, 0x00#8, 0x04#8, 0x0A#8, 0x00#8, 0xB0#8, 0x0C#8, 0x10#8]

theorem test_decode_setLocalId : decode defaultParams w_setLocalId = .ok (.setLocalId ⟨0x2A#8, 0x01#8, 0x00#8, 0xCC#8, 0xC4#8,
      [0x0A#8, 0x00#8, 0xB0#8, 0x0C#8]⟩) 13 := by decide

theorem test_step_setLocalId : replyOf (step (holding w_setLocalId)) = some (.frame (some (ascii "Set Local ID: 0CB0000A"))) := by decide

/-- V-3E-2. -/
def w_wakeUp : List Byte :=
  [0x68#8, 0x3E#8, 0x01#8, 0x00#8, 0x85#8, 0xBD#8, 0x00#8, 0x02#8, 0x01#8, 0x02#8, 0x10#8]

theorem test_decode_wakeUp : decode defaultParams w_wakeUp = .ok (.wakeUp ⟨0x3E#8, 0x01#8, 0x00#8, 0x85#8, 0xBD#8,
      [0x01#8, 0x02#8]⟩) 11 := by decide

theorem test_step_wakeUp : replyOf (step (holding w_wakeUp)) = some (.frame (some (ascii "Wake Up"))) := by decide

/-- V-42-2. -/
def w_deepSleep : List Byte :=
  [0x68#8, 0x42#8, 0x00#8, 0x00#8, 0x8E#8, 0xAC#8, 0x00#8, 0x01#8, 0x09#8, 0x10#8]

theorem test_decode_deepSleep : decode defaultParams w_deepSleep = .ok (.deepSleep ⟨0x42#8, 0x00#8, 0x00#8, 0x8E#8, 0xAC#8,
      [0x09#8]⟩) 10 := by decide

theorem test_step_deepSleep : replyOf (step (holding w_deepSleep)) = some (.frame (some (ascii "Deep Sleep Mode"))) := by decide

/-- V-45-1. -/
def w_setAlarmCfg : List Byte :=
  [0x68#8, 0x45#8, 0x01#8, 0x00#8, 0x92#8, 0xA5#8, 0x00#8, 0x03#8, 0x01#8, 0x02#8, 0x03#8, 0x10#8]

theorem test_decode_setAlarmCfg : decode defaultParams w_setAlarmCfg = .ok (.setAlarmCfg ⟨0x45#8, 0x01#8, 0x00#8, 0x92#8, 0xA5#8,
      [0x01#8, 0x02#8, 0x03#8]⟩) 12 := by decide

theorem test_step_setAlarmCfg : replyOf (step (holding w_setAlarmCfg)) = some (.frame (some (ascii "Set Alarm Configuration"))) := by decide

/-- V-48-1. -/
def w_quiet48 : List Byte :=
  [0x68#8, 0x48#8, 0x00#8, 0x00#8, 0xED#8, 0xA5#8, 0x00#8, 0x01#8, 0xAA#8, 0x10#8]

theorem test_decode_quiet48 : decode defaultParams w_quiet48 = .ok (.quiet48 ⟨0x48#8, 0x00#8, 0x00#8, 0xED#8, 0xA5#8,
      [0xAA#8]⟩) 10 := by decide

theorem test_step_quiet48 : replyOf (step (holding w_quiet48)) = some (.frame (none)) := by decide

/-- V-4C-1. -/
def w_quiet4C : List Byte :=
  [0x68#8, 0x4C#8, 0x02#8, 0x00#8, 0x85#8, 0xB3#8, 0x00#8, 0x00#8, 0x10#8]

theorem test_decode_quiet4C : decode defaultParams w_quiet4C = .ok (.quiet4C ⟨0x4C#8, 0x02#8, 0x00#8, 0x85#8, 0xB3#8,
      []⟩) 9 := by decide

theorem test_step_quiet4C : replyOf (step (holding w_quiet4C)) = some (.frame (none)) := by decide

/-- V-4D-1. -/
def w_setSquelch : List Byte :=
  [0x68#8, 0x4D#8, 0x01#8, 0x00#8, 0x93#8, 0xA1#8, 0x00#8, 0x01#8, 0x03#8, 0x10#8]

theorem test_decode_setSquelch : decode defaultParams w_setSquelch = .ok (.setSquelch ⟨0x4D#8, 0x01#8, 0x00#8, 0x93#8, 0xA1#8,
      [0x03#8]⟩) 10 := by decide

theorem test_step_setSquelch : replyOf (step (holding w_setSquelch)) = some (.frame (some (ascii "Set Squelch Level to 3"))) := by decide

/-- V-59-3. -/
def w_channelState : List Byte :=
  [0x68#8, 0x59#8, 0x02#8, 0x00#8, 0x05#8, 0xA4#8, 0x00#8, 0x02#8, 0x80#8, 0x00#8, 0x10#8]

theorem test_decode_channelState : decode defaultParams w_channelState = .ok (.channelState ⟨0x59#8, 0x02#8, 0x00#8, 0x05#8, 0xA4#8,
      [0x80#8, 0x00#8]⟩) 11 := by decide

theorem test_step_channelState : replyOf (step (holding w_channelState)) = some (.frame (some (ascii "Channel is Busy"))) := by decide

/-- V-60-3. -/
def w_inBand : List Byte :=
  [0x68#8, 0x60#8, 0x02#8, 0x00#8, 0x29#8, 0x2B#8, 0x00#8, 0x22#8, 0x02#8, 0x03#8, 0x03#8, 0x00#8, 0x41#8, 0x00#8,
    0xE9#8, 0x4E#8, 0x2D#8, 0x00#8, 0x00#8, 0x00#8, 0x00#8, 0x00#8, 0x00#8, 0x00#8, 0x00#8, 0x00#8, 0x00#8, 0x00#8,
    0x00#8, 0x00#8, 0x00#8, 0x00#8, 0x00#8, 0x00#8, 0x00#8, 0x00#8, 0x00#8, 0x00#8, 0x00#8, 0x00#8, 0x00#8, 0x00#8,
    0x10#8]

theorem test_decode_inBand : decode defaultParams w_inBand = .ok (.inBand ⟨0x60#8, 0x02#8, 0x00#8, 0x29#8, 0x2B#8,
      [0x02#8, 0x03#8, 0x03#8, 0x00#8, 0x41#8, 0x00#8, 0xE9#8, 0x4E#8, 0x2D#8, 0x00#8, 0x00#8, 0x00#8, 0x00#8, 0x00#8,
       0x00#8, 0x00#8, 0x00#8, 0x00#8, 0x00#8, 0x00#8, 0x00#8, 0x00#8, 0x00#8, 0x00#8, 0x00#8, 0x00#8, 0x00#8, 0x00#8,
       0x00#8, 0x00#8, 0x00#8, 0x00#8, 0x00#8, 0x00#8]⟩) 43 := by decide

theorem test_step_inBand : replyOf (step (holding w_inBand)) = some (.frame (some (ascii "Talker Alias(3): " ++ [0x41#8, 0xC3#8, 0xA9#8, 0xE4#8, 0xB8#8, 0xAD#8]))) := by decide

/-- V-62-2. -/
def w_detectedCall : List Byte :=
  [0x68#8, 0x62#8, 0x00#8, 0x00#8, 0xB3#8, 0x80#8, 0x00#8, 0x0A#8, 0x01#8, 0x00#8, 0x00#8, 0x30#8, 0x39#8, 0x00#8,
    0x12#8, 0xD6#8, 0x87#8, 0x0C#8, 0x10#8]

theorem test_decode_detectedCall : decode defaultParams w_detectedCall = .ok (.detectedCall ⟨0x62#8, 0x00#8, 0x00#8, 0xB3#8, 0x80#8,
      [0x01#8, 0x00#8, 0x00#8, 0x30#8, 0x39#8, 0x00#8, 0x12#8, 0xD6#8, 0x87#8, 0x0C#8]⟩) 19 := by decide

theorem test_step_detectedCall : replyOf (step (holding w_detectedCall)) = some (.frame (some (ascii "Detected Private call from 0012D687 to 00003039 in CC12"))) := by decide

/-- V-81-2. -/
def w_setKey : List Byte :=
  [0x68#8, 0x81#8, 0x01#8, 0x00#8, 0x83#8, 0x97#8, 0x00#8, 0x09#8, 0x02#8, 0x01#8, 0x11#8, 0x22#8, 0x33#8, 0x44#8,
    0x55#8, 0x66#8, 0x77#8, 0x10#8]

theorem test_decode_setKey : decode defaultParams w_setKey = .ok (.setKey ⟨0x81#8, 0x01#8, 0x00#8, 0x83#8, 0x97#8,
      [0x02#8, 0x01#8, 0x11#8, 0x22#8, 0x33#8, 0x44#8, 0x55#8, 0x66#8, 0x77#8]⟩) 18 := by decide

theorem test_step_setKey : replyOf (step (holding w_setKey)) = some (.frame (some (ascii "Set key: Seq 2, ARC = 1122334455"))) := by decide

/-- V-82-1. -/
def w_setChannel : List Byte :=
  [0x68#8, 0x82#8, 0x01#8, 0x00#8, 0x99#8, 0xD0#8, 0x00#8, 0x14#8, 0x01#8, 0x01#8, 0x00#8, 0x1A#8, 0x1F#8, 0x8C#8,
    0x10#8, 0x1A#8, 0x6B#8, 0xD7#8, 0x50#8, 0x00#8, 0x00#8, 0x00#8, 0x00#8, 0x00#8, 0x00#8, 0x00#8, 0x00#8, 0x00#8,
    0x10#8]

theorem test_decode_setChannel : decode defaultParams w_setChannel = .ok (.setChannel ⟨0x82#8, 0x01#8, 0x00#8, 0x99#8, 0xD0#8,
      [0x01#8, 0x01#8, 0x00#8, 0x1A#8, 0x1F#8, 0x8C#8, 0x10#8, 0x1A#8, 0x6B#8, 0xD7#8, 0x50#8, 0x00#8, 0x00#8, 0x00#8,
       0x00#8, 0x00#8, 0x00#8, 0x00#8, 0x00#8, 0x00#8]⟩) 29 := by decide

theorem test_step_setChannel : replyOf (step (holding w_setChannel)) = some (.frame (some (ascii "Set Channel: TS1 CC1 RX 438275088 TX 443275088"))) := by decide

/-- V-84-6. -/
def w_setGroupList : List Byte :=
  [0x68#8, 0x84#8, 0x01#8, 0x00#8, 0xCD#8, 0x5E#8, 0x00#8, 0x0A#8, 0x05#8, 0x12#8, 0x34#8, 0x56#8, 0x78#8, 0x00#8,
    0x00#8, 0x00#8, 0x07#8, 0xAA#8, 0x10#8]

theorem test_decode_setGroupList : decode defaultParams w_setGroupList = .ok (.setGroupList ⟨0x84#8, 0x01#8, 0x00#8, 0xCD#8, 0x5E#8,
      [0x05#8, 0x12#8, 0x34#8, 0x56#8, 0x78#8, 0x00#8, 0x00#8, 0x00#8, 0x07#8, 0xAA#8]⟩) 19 := by decide

theorem test_step_setGroupList : replyOf (step (holding w_setGroupList)) = some (.frame (some (ascii "Set group list: 12345678 7"))) := by decide

/-- V-02-6. -/
def w_filterMiss : List Byte :=
  [0x68#8, 0x02#8, 0x07#8, 0x00#8, 0x70#8, 0xEC#8, 0x00#8, 0x01#8, 0x20#8, 0x10#8]

theorem test_decode_filterMiss : decode defaultParams w_filterMiss = .ok (.filterMiss ⟨0x02#8, 0x07#8, 0x00#8, 0x70#8, 0xEC#8,
      [0x20#8]⟩) 10 := by decide

theorem test_step_filterMiss : replyOf (step (holding w_filterMiss)) = some (.frame (some (ascii "02 07 00 70 EC 00 01 20"))) := by decide

/-- V-DF-3. -/
def w_rawDump : List Byte :=
  [0x68#8, 0xFF#8, 0xFF#8, 0xFF#8, 0x97#8, 0xEE#8, 0x00#8, 0x01#8, 0xFF#8, 0x10#8]

theorem test_decode_rawDump : decode defaultParams w_rawDump = .ok (.rawDump ⟨0xFF#8, 0xFF#8, 0xFF#8, 0x97#8, 0xEE#8,
      [0xFF#8]⟩) 10 := by decide

theorem test_step_rawDump : replyOf (step (holding w_rawDump)) = some (.frame (some (ascii "FF FF FF 97 EE 00 01 FF"))) := by decide

/-! ## Well-formedness: each check refuses a term that fails only it -/

theorem test_wf_accepts : WellFormed defaultParams (.setRxVolume ⟨0x02#8, 0x01#8, 0x00#8, 0x76#8, 0xEC#8, [0x20#8]⟩) = true := by
  decide

theorem test_wf_payload_too_long :
    WellFormed defaultParams (.rawDump (frameOf .bigEndian 0x70#8 0x01#8 0x00#8 (List.replicate 256 0x00#8))) = false := by
  decide

theorem test_wf_checksum : WellFormed defaultParams (.setRxVolume ⟨0x02#8, 0x01#8, 0x00#8, 0x76#8, 0xED#8, [0x20#8]⟩) = false := by
  decide

/-- The checksum of V-02-3 under the other byte order. -/
theorem test_wf_checksum_order :
    WellFormed { defaultParams with cksumOrder := .littleEndian }
        (.setRxVolume ⟨0x02#8, 0x01#8, 0x00#8, 0xEB#8, 0x97#8, [0xFF#8]⟩) = true
      ∧ WellFormed defaultParams (.setRxVolume ⟨0x02#8, 0x01#8, 0x00#8, 0xEB#8, 0x97#8, [0xFF#8]⟩) = false := by
  decide

theorem test_wf_command : WellFormed defaultParams (.setMicGain ⟨0x02#8, 0x01#8, 0x00#8, 0x76#8, 0xEC#8, [0x20#8]⟩) = false := by
  decide

/-- V-02-5: the direction filter fails. -/
theorem test_wf_direction : WellFormed defaultParams (.setRxVolume ⟨0x02#8, 0x00#8, 0x00#8, 0x77#8, 0xEC#8, [0x20#8]⟩) = false := by
  decide

/-- V-02-4: the length filter fails. -/
theorem test_wf_length :
    WellFormed defaultParams (.setRxVolume ⟨0x02#8, 0x01#8, 0x00#8, 0x66#8, 0xDA#8, [0x20#8, 0x21#8]⟩) = false := by
  decide

theorem test_wf_filterMiss_of_admitted_frame :
    WellFormed defaultParams (.filterMiss ⟨0x02#8, 0x01#8, 0x00#8, 0x76#8, 0xEC#8, [0x20#8]⟩) = false := by
  decide

theorem test_wf_filterMiss_of_unlisted_code :
    WellFormed defaultParams (.filterMiss ⟨0x70#8, 0x01#8, 0x00#8, 0xDB#8, 0xD1#8, [0xAA#8, 0xBB#8]⟩) = false := by
  decide

theorem test_wf_rawDump_of_listed_code :
    WellFormed defaultParams (.rawDump ⟨0x02#8, 0x01#8, 0x00#8, 0x76#8, 0xEC#8, [0x20#8]⟩) = false := by
  decide

/-! ## Checksum and validator -/

/-- V-CK-7 (two passes of the fold), V-CK-8 (odd length), V-CK-11 (R97). -/
theorem test_compute :
    compute [0xFF#8, 0xFF#8, 0xFF#8, 0xFF#8, 0x00#8, 0x01#8] = 0xFFFE#16
      ∧ compute [0x12#8, 0x34#8, 0x56#8] = 0x97CB#16
      ∧ compute [0x68#8, 0x02#8, 0x01#8, 0x00#8, 0xFF#8, 0xFF#8, 0x00#8, 0x01#8, 0x20#8, 0x10#8] = 0x76EC#16 := by
  decide

/-- V-VAL-3, V-VAL-4: the length guard needs the ninth byte. -/
theorem test_validate_length_guard :
    validate .bigEndian [0x68#8, 0x02#8, 0x01#8, 0x00#8, 0x00#8, 0x00#8, 0x01#8, 0x00#8, 0x00#8] = .invalid .len
      ∧ validate .bigEndian [0x68#8, 0x02#8, 0x01#8, 0x00#8, 0x00#8, 0x00#8, 0x01#8, 0x00#8] = .incomplete := by
  decide

/-- V-VAL-9, V-VAL-13, V-VAL-8. -/
theorem test_validate_order_of_tests :
    validate .bigEndian [0x68#8, 0x02#8, 0x01#8, 0x00#8, 0x00#8, 0x00#8, 0x00#8, 0x01#8, 0x20#8, 0x00#8] = .invalid .tail
      ∧ validate .bigEndian [0x69#8, 0x02#8, 0x01#8, 0x00#8, 0x76#8, 0xEC#8, 0x00#8, 0x01#8, 0x20#8, 0x10#8]
          = .invalid .head
      ∧ validate .bigEndian [0x68#8, 0x02#8, 0x01#8, 0x00#8, 0x76#8, 0xED#8, 0x00#8, 0x01#8, 0x20#8, 0x10#8]
          = .invalid .cksum := by
  decide

/-- The corner of R96 (b) (log entry 36): the words other than the field are 0x6800, 0x87FF, 0x0000 and the tail's 0x1000, whose
sum is 0xFFFF, so R90 gives 0; with 0xFFFF carried, the sum of all words folds to 0xFFFF all the same, and R126 rejects the
frame. -/
def cornerFrame : Frame := ⟨0x00#8, 0x87#8, 0xFF#8, 0xFF#8, 0xFF#8, []⟩

theorem test_carried_ffff_is_rejected :
    compute cornerFrame.neutral.bytes = 0x0000#16 ∧ foldCarry 2 (wordSum cornerFrame.bytes) = 0xFFFF
      ∧ validate .bigEndian cornerFrame.bytes = .invalid .cksum := by
  decide

/-! ## Scanner and session -/

/-- V-SC-6. -/
theorem test_scan_noise_and_frame :
    nextOf (tryExtractOne (holding ([0xAA#8, 0x68#8, 0x02#8, 0x01#8, 0x00#8, 0x76#8, 0xEC#8, 0x00#8, 0x01#8, 0x20#8, 0x10#8,
        0xBB#8])))
      = some { holding [0xBB#8] with
          consumed := 11, reply := .frame (some (ascii "Set RX Volume to 32")) } := by
  decide

/-- V-SC-9: one byte is dropped, and the call ends. -/
theorem test_scan_resynchronizes :
    nextOf (tryExtractOne (holding ([0x68#8, 0x68#8, 0x02#8, 0x01#8, 0x00#8, 0x76#8, 0xEC#8, 0x00#8, 0x01#8, 0x20#8, 0x10#8])))
      = some { holding [0x68#8, 0x02#8, 0x01#8, 0x00#8, 0x76#8, 0xEC#8, 0x00#8, 0x01#8, 0x20#8, 0x10#8] with
          consumed := 1, reply := .resynchronized } := by
  decide

/-- V-SC-2, V-SC-3. -/
theorem test_scan_needs_more :
    nextOf (tryExtractOne (holding [0x00#8, 0x10#8, 0xFF#8, 0x67#8, 0x69#8]))
        = some { holding [] with consumed := 5, reply := .needMoreData }
      ∧ nextOf (tryExtractOne (holding [0x00#8, 0x00#8, 0x68#8, 0x02#8]))
        = some { holding [0x68#8, 0x02#8] with consumed := 2, reply := .needMoreData } := by
  decide

/-- R100, R222, R220, and a refusal (R29), as operations of the host. -/
theorem test_session_steps :
    nextOf (perform (.feed [0x02#8]) (holding [0x68#8])) = some (holding [0x68#8, 0x02#8])
      ∧ nextOf (perform .stop { holding [0x68#8] with consumed := 7 }) = some { stopped with consumed := 7 }
      ∧ nextOf (perform .start { stopped with consumed := 7 }) = some State.reset
      ∧ step stopped = .refused (.notAdmitted .tryExtractOne .stopped) := by
  exact ⟨by decide, by decide, by decide, rfl⟩

/-- R110: after the stop signal the bytes still to be read are not decoded. -/
theorem test_host_loop :
    hostLoop [.read (w_setRxVolume.take 4), .read (w_setRxVolume.drop 4 ++ w_signalCheck), .stopSignal, .read w_setRxVolume]
        State.reset
      = ([ascii "Set RX Volume to 255"], { stopped with consumed := 22 }) := by
  decide

/-- The accumulator as cells at their stream offsets (R25, R40), in canonical form, and at reset. -/
theorem test_cells :
    { holding [0x68#8, 0x02#8] with consumed := 5 }.cells = [(5, 0x68#8), (6, 0x02#8)]
      ∧ Memory.wf { holding [0x68#8, 0x02#8] with consumed := 5 }.cells ∧ Memory.wf State.reset.cells := by
  decide

/-! ## Text -/

/-- A quoted literal is its ASCII codes (R13, G4): "Call 0.z". -/
theorem test_ascii : ascii "Call 0.z" = [0x43#8, 0x61#8, 0x6C#8, 0x6C#8, 0x20#8, 0x30#8, 0x2E#8, 0x7A#8] := by decide

/-- V-81-2 with `KEY_HEX_SEP` a space (R178). -/
theorem test_key_separator :
    (match tryExtractOne { holding w_setKey with params := { defaultParams with keyHexSep := .space } } with
      | .next t => t.reply
      | _ => .silent) = .frame (some (ascii "Set key: Seq 2, ARC = 11 22 33 44 55")) := by decide

/-! ## Table words -/

/-- The word of SIGNAL_CHECK with every free bit 0: the completed frame is V-05-1 with direction 0. -/
theorem test_table_word :
    decodeTableWord 64 0x6805000000000000 = some (.signalCheck ⟨0x05#8, 0x00#8, 0x00#8, 0x87#8, 0xFA#8, []⟩) := by decide

/-- SET_RX_VOLUME needs direction 0x01 and length 1 (R160): with both in the word, and with neither. -/
theorem test_table_word_filters :
    (decodeTableWord 64 0x6802010000000001).map Instr.frame = some ⟨0x02#8, 0x01#8, 0x00#8, 0x96#8, 0xEC#8, [0x00#8]⟩
      ∧ (match decodeTableWord 64 0x6802010000000001 with | some (.setRxVolume _) => true | _ => false) = true
      ∧ (match decodeTableWord 64 0x6802000000000000 with | some (.filterMiss _) => true | _ => false) = true := by
  decide

/-- A length field of 256 or more is no instruction (R122). -/
theorem test_table_word_bad_length : decodeTableWord 64 0x6802010000000100 = none := by decide

/-- V-02-2 through the word interface, as the first step after reset. -/
theorem test_fetch_word :
    replyOf (step (State.reset.withFetchWord 64 0x6802010000000001)) = some (.frame (some (ascii "Set RX Volume to 0"))) := by
  decide

/-! ## Witnesses: the hypotheses of the statements can be met, clause by clause -/

/-- A complete valid frame (S1). -/
def s1 : Frame := ⟨0x02#8, 0x01#8, 0x00#8, 0x76#8, 0xEC#8, [0x20#8]⟩

/-- The shortest valid frame (V-05-1). -/
def s0 : Frame := ⟨0x05#8, 0x01#8, 0x00#8, 0x86#8, 0xFA#8, []⟩

theorem witness_ResetAndSessionValues : stopped.session ≠ .running ∧ (holding [0x68#8]).session = .running := by decide

theorem witness_SessionOperationsAnswerWholeStates :
    { stopped with session := .idle }.session ≠ .running ∧ (holding [0x68#8]).session = .running := by decide

theorem witness_OperationsOutsideTheirSessionAreRefused :
    State.reset.session = .running ∧ stopped.session ≠ .running ∧ (HostOp.feed []) ≠ .start := by decide

theorem witness_ScriptsPerformTheirOperationsInOrder :
    performAll [.feed [0x68#8], .stop] State.reset = .next stopped
      ∧ performAll [.stop, .stop] State.reset = .refused (.notAdmitted .stop .stopped) := ⟨rfl, rfl⟩

theorem witness_StepRunsTheDecodedInstruction :
    (holding (0xAA#8 :: s1.bytes)).session = .running
      ∧ (holding (0xAA#8 :: s1.bytes)).findHead = some 1
      ∧ decode (holding (0xAA#8 :: s1.bytes)).params ((holding (0xAA#8 :: s1.bytes)).acc.drop 1)
          = .ok (.setRxVolume s1) 10 := by decide

theorem witness_NoHeadDropsEverything :
    (holding [0x10#8, 0x69#8]).session = .running ∧ headByte ∉ (holding [0x10#8, 0x69#8]).acc ∧ headByte ∉ (holding []).acc := by
  decide

theorem witness_LeadingNoiseIsDroppedInTheSameCall :
    (holding [0x00#8, 0x68#8, 0x02#8]).session = .running ∧ headByte ∉ [0x00#8]
      ∧ (holding [0x00#8, 0x68#8, 0x02#8]).acc = [0x00#8] ++ headByte :: [0x02#8] := by decide

theorem witness_IncompleteCandidateIsLeftUntouched :
    (holding (s1.bytes.take 9)).session = .running ∧ (holding (s1.bytes.take 9)).acc.head? = some headByte
      ∧ validate (holding (s1.bytes.take 9)).params.cksumOrder (holding (s1.bytes.take 9)).acc = .incomplete := by decide

theorem witness_ReofferIsIdempotent :
    nextOf (tryExtractOne (holding [0x00#8, 0x68#8]))
        = some { holding [0x68#8] with consumed := 1, reply := .needMoreData } := by
  decide

/-- One state for each cause the scanner can meet: length, tail, checksum (R200). -/
theorem witness_InvalidCandidateDropsOneByte :
    (holding (headByte :: List.replicate 8 0x68#8)).session = .running
      ∧ validate .bigEndian (holding (headByte :: List.replicate 8 0x68#8)).acc = .invalid .len
      ∧ validate .bigEndian (holding (headByte :: [0x05#8, 0x01#8, 0x00#8, 0x86#8, 0xFA#8, 0x00#8, 0x00#8, 0x11#8])).acc
          = .invalid .tail
      ∧ validate .bigEndian (holding (headByte :: [0x05#8, 0x01#8, 0x00#8, 0x86#8, 0xFB#8, 0x00#8, 0x00#8, 0x10#8])).acc
          = .invalid .cksum := by decide

theorem witness_ValidFrameIsDeliveredAndDropped :
    (holding (s1.bytes ++ [0x68#8])).session = .running ∧ s1.ok .bigEndian = true ∧ s0.ok .bigEndian = true
      ∧ (holding (s1.bytes ++ [0x68#8])).acc = s1.bytes ++ [0x68#8] := by decide

theorem witness_FrameResultComesFromAValidFrame :
    nextOf (tryExtractOne (holding s0.bytes)) = some { holding [] with consumed := 9, reply := .frame none } := by decide

theorem witness_ScannerWaitsOrProgresses :
    nextOf (tryExtractOne (holding [0x68#8])) = some { holding [0x68#8] with reply := .needMoreData }
      ∧ nextOf (tryExtractOne (holding (s0.bytes ++ [0x01#8])))
        = some { holding [0x01#8] with consumed := 9, reply := .frame none } := by decide

theorem witness_ScannerOnlyDropsFromTheFront :
    nextOf (tryExtractOne (holding [0x01#8])) = some { holding [] with consumed := 1, reply := .needMoreData } := by decide

theorem witness_DrainEndsWaiting : (holding s1.bytes).session = .running := by decide

theorem witness_DrainDeliversBackToBackFrames :
    (holding (s1.bytes ++ s0.bytes)).session = .running ∧ (∀ f ∈ [s1, s0], f.ok .bigEndian = true)
      ∧ (holding (s1.bytes ++ s0.bytes)).acc = [s1, s0].flatMap Frame.bytes := by decide

theorem witness_ResultsDoNotDependOnFragmentation :
    State.reset.session = .running ∧ State.reset.acc = []
      ∧ [s1.bytes.take 3, [], s1.bytes.drop 3].flatten = [s1.bytes].flatten := by decide

theorem witness_StopSignalEndsDecoding :
    (holding s1.bytes).session = .running ∧ HostEvent.stopSignal = .stopSignal ∧ HostEvent.transportError = .transportError := by
  decide

theorem witness_FoldIsTheResidueModulo65535 : 0 < 2 ^ 32 ∧ 0xFFFFFFFF < 2 ^ 32 := by decide

theorem witness_NeutralFieldEqualsZeroedField :
    s0.len < 256 ∧ (fr 0x70#8 0x01#8 (List.replicate 255 0xFF#8)).len < 256 := by decide

theorem witness_CheckIsTheOnesComplementSum : s1.len < 256 ∧ cornerFrame.len < 256 := by decide

theorem witness_SingleByteChangeIsRejected :
    s1.ok .bigEndian = true ∧ 0 < s1.len ∧ s1.payload[0]? ≠ some 0x21#8 ∧ 0x03#8 ≠ s1.command ∧ 0x00#8 ≠ s1.direction
      ∧ 0xFF#8 ≠ s1.sequence := by decide

theorem witness_ChecksumRoundTrip : ([] : List Byte).length < 256 ∧ (List.replicate 255 0x00#8).length < 256 := by decide

theorem witness_LengthGuardNeedsNineBytes :
    9 ≤ s0.bytes.length
      ∧ (holding (headByte :: [0x02#8, 0x01#8, 0x00#8, 0x00#8, 0x00#8, 0x01#8, 0x00#8, 0x00#8])).session = .running
      ∧ 9 ≤ (holding (headByte :: [0x02#8, 0x01#8, 0x00#8, 0x00#8, 0x00#8, 0x01#8, 0x00#8, 0x00#8])).acc.length
      ∧ 256 ≤ rd16 (holding (headByte :: [0x02#8, 0x01#8, 0x00#8, 0x00#8, 0x00#8, 0x01#8, 0x00#8, 0x00#8])).acc 6 := by decide

theorem witness_VerdictIsPrefixStable :
    validate .bigEndian s0.bytes ≠ .incomplete ∧ 264 ≤ (List.replicate 264 0x68#8).length := by decide

theorem witness_TailIsTestedBeforeTheChecksum : s1.len < 256 ∧ 0x11#8 ≠ tailByte := by decide

/-- One instruction of the default rows and one of the listed rows. -/
theorem witness_DecodeInvertsEncode :
    WellFormed defaultParams (.signalCheck s0) = true
      ∧ WellFormed defaultParams (.rawDump ⟨0x70#8, 0x01#8, 0x00#8, 0xDB#8, 0xD1#8, [0xAA#8, 0xBB#8]⟩) = true
      ∧ WellFormed defaultParams (.filterMiss ⟨0x0B#8, 0x01#8, 0x00#8, 0x86#8, 0xF4#8, []⟩) = true := by decide

theorem witness_EncodeInvertsDecode : decode defaultParams (s0.bytes ++ [0x68#8]) = .ok (.signalCheck s0) 9 := by decide

theorem witness_RowSelectionFollowsTheMap :
    (fr 0x70#8 0x01#8 []).command ∉ listedCodes
      ∧ Instr.setKey (fr 0x81#8 0x01#8 (List.replicate 7 0#8)) ∈ listedRows (fr 0x81#8 0x01#8 (List.replicate 7 0#8))
      ∧ (Instr.setKey (fr 0x81#8 0x01#8 (List.replicate 7 0#8))).ownRow defaultParams = true
      ∧ (fr 0x81#8 0x01#8 (List.replicate 6 0#8)).command ∈ listedCodes
      ∧ (∀ i ∈ listedRows (fr 0x81#8 0x01#8 (List.replicate 6 0#8)), i.ownRow defaultParams = false) := by decide

theorem witness_SetRxVolumeResult :
    (fr 0x02#8 0x01#8 [0xFF#8]).direction = 0x01#8 ∧ (fr 0x02#8 0x01#8 [0xFF#8]).payload = [0xFF#8]
      ∧ (fr 0x02#8 0x00#8 [0xFF#8]).direction ≠ 0x01#8 ∧ (fr 0x02#8 0x01#8 []).payload.length ≠ 1
      ∧ (fr 0x02#8 0x00#8 [0xFF#8]).command = 0x02#8 := by decide

theorem witness_MicGainAndSquelchResult :
    (fr 0x0B#8 0x01#8 [0x00#8]).direction = 0x01#8 ∧ (fr 0x0B#8 0x01#8 [0x00#8]).payload = [0x00#8] := by decide

theorem witness_SuppressedRowsGiveNoText :
    (fr 0x05#8 0x01#8 []).command = 0x05#8 ∧ (fr 0x09#8 0x01#8 []).command = 0x09#8 ∧ (fr 0x48#8 0x01#8 []).command = 0x48#8
      ∧ (fr 0x4C#8 0x01#8 []).command = 0x4C#8 := by decide

theorem witness_FixedTextResults :
    (fr 0x3E#8 0x01#8 []).direction = 0x01#8 ∧ (fr 0x3E#8 0x00#8 []).direction ≠ 0x01#8 ∧ (fr 0x3E#8 0x00#8 []).command = 0x3E#8
      ∧ (fr 0x1A#8 0x01#8 []).command = 0x1A#8 ∧ (fr 0x42#8 0x01#8 []).command = 0x42#8
      ∧ (fr 0x45#8 0x01#8 []).command = 0x45#8 := by decide

theorem witness_PowerSaveResult :
    (fr 0x0C#8 0x01#8 [0x03#8]).direction = 0x01#8 ∧ (fr 0x0C#8 0x01#8 [0x03#8]).payload = [0x03#8]
      ∧ (fr 0x0C#8 0x00#8 [0x03#8]).direction ≠ 0x01#8 ∧ (fr 0x0C#8 0x01#8 [0x03#8, 0x00#8]).payload.length ≠ 1
      ∧ (fr 0x0C#8 0x01#8 [0x03#8, 0x00#8]).command = 0x0C#8 := by decide

/-- Lengths 9, 8 and 10, and both orders. -/
theorem witness_CallStateResult :
    (fr 0x06#8 0x02#8 [1#8, 2#8, 3#8, 4#8, 5#8, 6#8, 7#8, 8#8, 9#8]).direction = State.reset.params.dirUpload
      ∧ (fr 0x06#8 0x02#8 [1#8, 2#8, 3#8, 4#8, 5#8, 6#8, 7#8, 8#8, 9#8]).payload = [1#8, 2#8, 3#8, 4#8, 5#8, 6#8, 7#8, 8#8, 9#8]
      ∧ State.reset.params.call06Order = .wireOrder
      ∧ { State.reset with params := { defaultParams with call06Order := .like62 } }.params.call06Order = .like62
      ∧ (fr 0x06#8 0x02#8 (List.replicate 8 0#8)).payload.length ≠ 9
      ∧ (fr 0x06#8 0x02#8 (List.replicate 8 0#8)).payload.length < 256
      ∧ (fr 0x06#8 0x02#8 (List.replicate 255 0#8)).payload.length ≠ 9
      ∧ (fr 0x06#8 0x02#8 (List.replicate 255 0#8)).payload.length < 256 := by decide

theorem witness_FirmwareAndLocalIdResult :
    (fr 0x25#8 0x00#8 [1#8, 0#8, 0x0A#8, 0x23#8]).payload = [1#8, 0#8, 0x0A#8, 0x23#8]
      ∧ (fr 0x25#8 0x00#8 [1#8, 0#8, 0x0A#8, 0x23#8]).direction = State.reset.params.dirToHost
      ∧ State.reset.params.fwHexWidth = .two
      ∧ { State.reset with params := { defaultParams with fwHexWidth := .min } }.params.fwHexWidth = .min
      ∧ (fr 0x2A#8 0x01#8 [1#8, 0#8, 0x0A#8, 0x23#8]).direction = 0x01#8 := by decide

theorem witness_ChannelStateResult :
    (fr 0x59#8 0x02#8 [0x80#8, 0x00#8]).direction = State.reset.params.dirUpload
      ∧ (fr 0x59#8 0x02#8 [0x80#8, 0x00#8]).payload = 0x80#8 :: [0x00#8]
      ∧ (fr 0x59#8 0x02#8 []).payload = [] := by decide

theorem witness_InBandDumpResult :
    (fr 0x60#8 0x00#8 (1#8 :: List.replicate 33 0#8)).payload = 1#8 :: List.replicate 33 0#8
      ∧ (List.replicate 33 0#8).length = 33 ∧ (1#8 : Byte) ≠ 2#8 := by decide

/-- Encodings 0, 2, 1, 4 (the least of the unlisted) and 255. -/
theorem witness_TalkerAliasByteResult :
    (fr 0x60#8 0x00#8 (2#8 :: 0#8 :: 31#8 :: List.replicate 31 0x41#8)).payload
        = 2#8 :: 0#8 :: 31#8 :: List.replicate 31 0x41#8
      ∧ (List.replicate 31 0x41#8).length = 31
      ∧ ((2#8 : Byte) = 0#8 ∨ (2#8 : Byte) = 2#8) ∧ 4 ≤ (4#8 : Byte).toNat ∧ 4 ≤ (255#8 : Byte).toNat := by decide

theorem witness_TalkerAliasUcs2Result :
    (List.replicate 15 ((0x4E#8, 0x2D#8) : Byte × Byte)).length = 15
      ∧ (fr 0x60#8 0x00#8 (2#8 :: 3#8 :: 20#8
            :: ((List.replicate 15 ((0x4E#8, 0x2D#8) : Byte × Byte)).flatMap (fun u => [u.1, u.2]) ++ [0x62#8]))).payload
          = 2#8 :: 3#8 :: 20#8
            :: ((List.replicate 15 ((0x4E#8, 0x2D#8) : Byte × Byte)).flatMap (fun u => [u.1, u.2]) ++ [0x62#8]) := by decide

theorem witness_DetectedCallResult :
    (fr 0x62#8 0x00#8 [9#8, 1#8, 2#8, 3#8, 4#8, 5#8, 6#8, 7#8, 8#8, 255#8]).payload
      = [9#8, 1#8, 2#8, 3#8, 4#8, 5#8, 6#8, 7#8, 8#8, 255#8] := by decide

/-- The shortest key field, five bytes. -/
theorem witness_SetKeyResult :
    (fr 0x81#8 0x01#8 (2#8 :: 5#8 :: List.replicate 5 0xA0#8)).direction = 0x01#8
      ∧ (fr 0x81#8 0x01#8 (2#8 :: 5#8 :: List.replicate 5 0xA0#8)).payload = 2#8 :: 5#8 :: List.replicate 5 0xA0#8
      ∧ 5 ≤ (List.replicate 5 0xA0#8).length := by decide

theorem witness_SetChannelResult :
    (fr 0x82#8 0x01#8 (1#8 :: 1#8 :: 0#8 :: 0x1A#8 :: 0x1F#8 :: 0x8C#8 :: 0x10#8 :: 0x1A#8 :: 0x6B#8 :: 0xD7#8 :: 0x50#8
        :: List.replicate 9 0#8)).direction = 0x01#8 ∧ (List.replicate 9 (0#8 : Byte)).length = 9 := by decide

/-- Lengths 4 and 5 (one entry, nothing left over) and 8 (three bytes left over). -/
theorem witness_SetGroupListResult :
    (fr 0x84#8 0x01#8 [1#8, 0x12#8, 0x34#8, 0x56#8]).direction = 0x01#8
      ∧ (fr 0x84#8 0x01#8 [1#8, 0x12#8, 0x34#8, 0x56#8]).payload.length < 5
      ∧ (fr 0x84#8 0x01#8 [1#8, 0x12#8, 0x34#8, 0x56#8, 0x78#8]).payload
          = 1#8 :: ([((0x12#8, 0x34#8, 0x56#8, 0x78#8) : Byte × Byte × Byte × Byte)].flatMap
              (fun e => [e.1, e.2.1, e.2.2.1, e.2.2.2]) ++ [])
      ∧ (fr 0x84#8 0x01#8 [1#8, 0x12#8, 0x34#8, 0x56#8, 0x78#8, 7#8, 7#8, 7#8]).payload
          = 1#8 :: ([((0x12#8, 0x34#8, 0x56#8, 0x78#8) : Byte × Byte × Byte × Byte)].flatMap
              (fun e => [e.1, e.2.1, e.2.2.1, e.2.2.2]) ++ [7#8, 7#8, 7#8])
      ∧ [7#8, 7#8, (7#8 : Byte)].length < 4 := by decide

theorem witness_FilterMissResult :
    State.reset.params.filterMiss = .rawDump
      ∧ { State.reset with params := { defaultParams with filterMiss := .noOutput } }.params.filterMiss = .noOutput := by decide

theorem witness_FilteredRowsGiveTheMiss :
    (fr 0x02#8 0x07#8 []).direction ≠ 0x01#8 ∧ (fr 0x02#8 0x07#8 []).direction ≠ State.reset.params.dirUpload
      ∧ (fr 0x02#8 0x07#8 []).direction ≠ State.reset.params.dirToHost ∧ (fr 0x02#8 0x01#8 [1#8, 2#8]).payload.length ≠ 1
      ∧ (fr 0x2A#8 0x01#8 (List.replicate 5 0#8)).payload.length ≠ 4
      ∧ (fr 0x60#8 0x01#8 (List.replicate 35 0#8)).payload.length ≠ 34
      ∧ (fr 0x62#8 0x01#8 (List.replicate 9 0#8)).payload.length ≠ 10
      ∧ (fr 0x81#8 0x01#8 (List.replicate 6 0#8)).payload.length < 7
      ∧ (fr 0x82#8 0x01#8 (List.replicate 19 0#8)).payload.length ≠ 20 := by decide

theorem witness_RawDumpResult :
    (fr 0x70#8 0x01#8 []).payload.length < 256 ∧ (fr 0x70#8 0x01#8 (List.replicate 255 0#8)).payload.length < 256
      ∧ (fr 0x70#8 0x01#8 []).command ∉ listedCodes := by decide

theorem witness_DecimalSpellingIsShortest : (4294967295 : Nat) ≠ 0 ∧ 0x31#8 ∈ dec 10 := by decide

theorem witness_HexSpellingGivesTheByteBack : 0x41#8 ∈ [(0x41#8 : Byte), 0x46#8] := by decide

theorem witness_Utf8SpellingDeterminesTheUnit :
    (0x7F : Nat) < 0x80 ∧ 0x80 ≤ (0x80 : Nat) ∧ (0x7FF : Nat) < 0x800 ∧ 0x800 ≤ (0x800 : Nat) ∧ (65535 : Nat) < 65536
      ∧ utf8 65535 = utf8 65535 := by decide

theorem witness_BcdIdentifierValue : (15 : Nat) ≤ 15 ∧ (0 : Nat) ≤ 15 := by decide

theorem witness_DirectionPredicatesDecodeTheByte : defaultParams.WF := by decide

theorem witness_StepNeverWritesTheParameters :
    nextOf (step (holding [0x68#8])) = some { holding [0x68#8] with reply := .needMoreData }
      ∧ nextOf (perform (.feed [0x68#8]) State.reset) = some (holding [0x68#8]) := by decide

theorem witness_StepKeepsTheInvariant :
    (holding [0x68#8]).Inv ∧ step (holding [0x68#8]) = .next { holding [0x68#8] with reply := .needMoreData }
      ∧ perform .stop (holding [0x68#8]) = .next stopped :=
  ⟨⟨by decide, by decide, fun h => by cases h⟩, rfl, rfl⟩

end Sys2Proof.Tests
end

section
/-! Scripts of host operations (R9, R49): a script of two parts is its parts in sequence. -/

namespace Sys2Proof.Machine

/-- Go on with `k` from the next state, or stop at the fault or the refusal. -/
def andThen (a : Answer) (k : State → Answer) : Answer :=
  match a with
  | .next t => k t
  | .fault r => .fault r
  | .refused r => .refused r

theorem performAll_cons_eq (op : HostOp) (ops : List HostOp) (s : State) :
    performAll (op :: ops) s = andThen (perform op s) (performAll ops) := rfl

theorem andThen_assoc (a : Answer) (k l : State → Answer) :
    andThen (andThen a k) l = andThen a (fun t => andThen (k t) l) := by
  cases a <;> rfl

theorem performAll_singleton (op : HostOp) (s : State) : performAll [op] s = perform op s := by
  rw [performAll_cons_eq]
  cases perform op s <;> rfl

theorem performAll_append (ops rest : List HostOp) (s : State) :
    performAll (ops ++ rest) s = andThen (performAll ops s) (performAll rest) := by
  induction ops generalizing s with
  | nil => rfl
  | cons op ops ih =>
    calc performAll (op :: (ops ++ rest)) s
      _ = andThen (perform op s) (performAll (ops ++ rest)) := performAll_cons_eq ..
      _ = andThen (perform op s) (fun t => andThen (performAll ops t) (performAll rest)) := by rw [funext ih]
      _ = andThen (performAll (op :: ops) s) (performAll rest) := by rw [performAll_cons_eq, andThen_assoc]

/-- Settles O4: a script runs as its parts in sequence (`performAll_append`). -/
theorem scriptsPerformTheirOperationsInOrder : Obligations.ScriptsPerformTheirOperationsInOrder := by
  refine ⟨fun _ => rfl, fun s op => performAll_singleton op s, ?_, ?_⟩
  · intro s t ops rest h
    rw [performAll_append, h]
    rfl
  · intro s r ops rest h
    rw [performAll_append, h]
    rfl

end Sys2Proof.Machine
end

section
/-! The decimal spelling `dec` (R13) is Mathlib's `Nat.digits 10`, most significant digit first. -/

namespace Sys2Proof.Machine

/-- The character of a decimal digit. -/
def decDigit (d : Nat) : Byte := BitVec.ofNat 8 (0x30 + d)

theorem decDigit_toNat {d : Nat} (h : d < 10) : (decDigit d).toNat = 0x30 + d := by
  rw [decDigit, BitVec.toNat_ofNat]
  omega

theorem decDigits_eq {fuel v : Nat} (acc : Text) (hf : v < fuel) (hv : v ≠ 0) :
    decDigits fuel v acc = (Nat.digits 10 v).reverse.map decDigit ++ acc := by
  induction fuel generalizing v acc with
  | zero => omega
  | succ fuel ih =>
    rw [Nat.digits_eq_cons_digits_div (by decide) hv]
    by_cases hq : v / 10 = 0
    · simp [decDigits, decDigit, hq]
    · have hstep : decDigits (fuel + 1) v acc = decDigits fuel (v / 10) (decDigit (v % 10) :: acc) := by
        simp only [decDigits, if_neg hq, decDigit]
      rw [hstep, ih _ (by omega) hq]
      simp

theorem dec_zero : dec 0 = [0x30#8] := rfl

theorem dec_of_ne_zero {v : Nat} (hv : v ≠ 0) : dec v = (Nat.digits 10 v).reverse.map decDigit := by
  rw [dec, decDigits_eq [] (Nat.lt_succ_self v) hv, List.append_nil]

theorem mem_dec_of_ne_zero {v : Nat} (hv : v ≠ 0) {b : Byte} (hb : b ∈ dec v) : ∃ d < 10, b = decDigit d := by
  simp only [dec_of_ne_zero hv, List.mem_map, List.mem_reverse] at hb
  obtain ⟨d, hd, rfl⟩ := hb
  exact ⟨d, Nat.digits_lt_base (by decide) hd, rfl⟩

theorem mem_dec_isDigit {v : Nat} {b : Byte} (hb : b ∈ dec v) : 0x30 ≤ b.toNat ∧ b.toNat ≤ 0x39 := by
  by_cases hv : v = 0
  · subst hv
    rw [dec_zero, List.mem_singleton] at hb
    subst hb
    decide
  · obtain ⟨d, hd, rfl⟩ := mem_dec_of_ne_zero hv hb
    rw [decDigit_toNat hd]
    omega

/-- Reading digit characters from the left is `Nat.ofDigits` of the digits, least significant first. -/
theorem foldl_decDigit_eq_ofDigits {ds : List Nat} (h : ∀ d ∈ ds, d < 10) :
    (ds.reverse.map decDigit).foldl (fun n b => n * 10 + (b.toNat - 0x30)) 0 = Nat.ofDigits 10 ds := by
  induction ds with
  | nil => rfl
  | cons d ds ih =>
    rw [List.forall_mem_cons] at h
    obtain ⟨hd, hds⟩ := h
    simp only [List.reverse_cons, List.map_append, List.foldl_append, ih hds, Nat.ofDigits_cons]
    simp only [List.map_cons, List.map_nil, List.foldl_cons, List.foldl_nil, decDigit_toNat hd]
    omega

theorem dec_value (v : Nat) : (dec v).foldl (fun n b => n * 10 + (b.toNat - 0x30)) 0 = v := by
  by_cases hv : v = 0
  · subst hv
    rfl
  · rw [dec_of_ne_zero hv, foldl_decDigit_eq_ofDigits fun _ => Nat.digits_lt_base (by decide), Nat.ofDigits_digits]

theorem dec_ne_nil (v : Nat) : dec v ≠ [] := by
  by_cases hv : v = 0
  · subst hv
    simp [dec_zero]
  · simpa [dec_of_ne_zero hv, Nat.digits_eq_nil_iff_eq_zero] using hv

/-- No padding: the first character is the most significant digit, which is not 0. -/
theorem dec_head?_ne_zero {v : Nat} (hv : v ≠ 0) : (dec v).head? ≠ some 0x30#8 := by
  have hne : Nat.digits 10 v ≠ [] := Nat.digits_ne_nil_iff_ne_zero.2 hv
  have hlt : (Nat.digits 10 v).getLast hne < 10 := Nat.digits_lt_base (by decide) (List.getLast_mem hne)
  have hpos : (Nat.digits 10 v).getLast hne ≠ 0 := Nat.getLast_digit_ne_zero 10 hv
  rw [dec_of_ne_zero hv, List.head?_map, List.head?_reverse, List.getLast?_eq_some_getLast hne]
  intro h
  have hnat := congrArg BitVec.toNat (Option.some.inj h)
  rw [decDigit_toNat hlt, BitVec.toNat_ofNat] at hnat
  omega

/-- Settles O52: `dec` is `Nat.digits 10` reversed, digit by digit. -/
theorem decimalSpellingIsShortest : Obligations.DecimalSpellingIsShortest := fun v =>
  ⟨dec_value v, fun _ => mem_dec_isDigit, dec_ne_nil v, dec_head?_ne_zero, dec_zero⟩

end Sys2Proof.Machine
end

section
/-! The hexadecimal spellings (R13, R167). -/

namespace Sys2Proof.Machine

theorem hiNibble_lt (b : Byte) : hiNibble b < 16 := by
  have := b.isLt
  unfold hiNibble
  omega

theorem loNibble_lt (b : Byte) : loNibble b < 16 := Nat.mod_lt _ (by decide)

theorem hiNibble_mul_add_loNibble (b : Byte) : hiNibble b * 16 + loNibble b = b.toNat :=
  Nat.div_add_mod' b.toNat 16

theorem hiNibble_eq_zero_iff (b : Byte) : hiNibble b = 0 ↔ b.toNat < 16 :=
  Nat.div_eq_zero_iff_lt (by decide)

theorem hexDigit_toNat {v : Nat} (h : v < 16) : (hexDigit v).toNat = if v < 10 then 0x30 + v else 0x37 + v := by
  unfold hexDigit
  split <;> rw [BitVec.toNat_ofNat] <;> omega

theorem hexDigit_isUpperHex {v : Nat} (h : v < 16) :
    (0x30 ≤ (hexDigit v).toNat ∧ (hexDigit v).toNat ≤ 0x39)
      ∨ (0x41 ≤ (hexDigit v).toNat ∧ (hexDigit v).toNat ≤ 0x46) := by
  rw [hexDigit_toNat h]
  split <;> omega

/-- The value of an uppercase hexadecimal digit. -/
def hexValue (c : Byte) : Nat := if c.toNat ≤ 0x39 then c.toNat - 0x30 else c.toNat - 0x37

theorem hexValue_hexDigit {v : Nat} (h : v < 16) : hexValue (hexDigit v) = v := by
  rw [hexValue, hexDigit_toNat h]
  split <;> split <;> omega

theorem hex2_value (b : Byte) :
    hexValue (hexDigit (hiNibble b)) * 16 + hexValue (hexDigit (loNibble b)) = b.toNat := by
  rw [hexValue_hexDigit (hiNibble_lt b), hexValue_hexDigit (loNibble_lt b), hiNibble_mul_add_loNibble]

theorem hexMin_eq (b : Byte) : hexMin b = if b.toNat < 16 then (hex2 b).drop 1 else hex2 b := by
  simp only [hexMin, hiNibble_eq_zero_iff]
  rfl

theorem hexcat_eq_flatten (bs : List Byte) : hexcat bs = (bs.map hex2).flatten := List.flatMap_def ..

theorem hexsp_cons_cons (b c : Byte) (bs : List Byte) :
    hexsp (b :: c :: bs) = hex2 b ++ [0x20#8] ++ hexsp (c :: bs) := by
  simp [hexsp, hexEach, space]

theorem hexsp_eq_intercalate (bs : List Byte) : hexsp bs = [0x20#8].intercalate (bs.map hex2) := by
  induction bs with
  | nil => rfl
  | cons b bs ih =>
    cases bs with
    | nil => rfl
    | cons c bs => simp only [hexsp_cons_cons, ih, List.map_cons, List.intercalate_cons_cons]

/-- Settles O53: the two characters of `hex2` are the digits of the byte's nibbles. -/
theorem hexSpellingGivesTheByteBack : Obligations.HexSpellingGivesTheByteBack := by
  refine ⟨fun b => ⟨_, _, rfl, ?_, hex2_value b⟩, hexMin_eq,
    fun bs => ⟨hexcat_eq_flatten bs, hexsp_eq_intercalate bs⟩⟩
  intro c hc
  obtain rfl | rfl : c = hexDigit (hiNibble b) ∨ c = hexDigit (loNibble b) := by simpa using hc
  · exact hexDigit_isUpperHex (hiNibble_lt b)
  · exact hexDigit_isUpperHex (loNibble_lt b)

end Sys2Proof.Machine
end

section
/-! The spelling `utf8` (R13, G3), and the code read back from it. -/

namespace Sys2Proof.Machine

theorem utf8_one {c : Nat} (h : c < 0x80) : (utf8 c).map BitVec.toNat = [c] := by
  have : c % 256 = c := Nat.mod_eq_of_lt (by omega)
  simp [utf8, h, this]

theorem utf8_two {c : Nat} (h : 0x80 ≤ c) (h' : c < 0x800) :
    (utf8 c).map BitVec.toNat = [0xC0 + c / 64, 0x80 + c % 64] := by
  simp only [utf8, if_neg (Nat.not_lt.2 h), if_pos h', List.map_cons, List.map_nil, BitVec.toNat_ofNat]
  congr 2 <;> omega

theorem utf8_three {c : Nat} (h : 0x800 ≤ c) (h' : c < 65536) :
    (utf8 c).map BitVec.toNat = [0xE0 + c / 4096, 0x80 + c / 64 % 64, 0x80 + c % 64] := by
  have h1 : ¬ c < 0x80 := by omega
  simp only [utf8, if_neg h1, if_neg (Nat.not_lt.2 h), List.map_cons, List.map_nil, BitVec.toNat_ofNat]
  congr 3 <;> omega

theorem utf8_length (c : Nat) : (utf8 c).length = if c < 0x80 then 1 else if c < 0x800 then 2 else 3 := by
  simp only [utf8, apply_ite List.length, List.length_cons, List.length_nil]

/-- The code that one, two or three bytes spell: the payload bits of each byte, put together. -/
def utf8Code : List Nat → Nat
  | [a] => a
  | [a, b] => a % 32 * 64 + b % 64
  | [a, b, c] => (a % 16 * 64 + b % 64) * 64 + c % 64
  | _ => 0

theorem utf8Code_utf8 {c : Nat} (h : c < 65536) : utf8Code ((utf8 c).map BitVec.toNat) = c := by
  by_cases h1 : c < 0x80
  · rw [utf8_one h1]
    rfl
  · by_cases h2 : c < 0x800
    · rw [utf8_two (by omega) h2, utf8Code]
      omega
    · rw [utf8_three (by omega) h, utf8Code]
      omega

/-- Settles O54: the bytes by range, and `utf8Code` reads every code unit back from its spelling. -/
theorem utf8SpellingDeterminesTheUnit : Obligations.Utf8SpellingDeterminesTheUnit := by
  refine ⟨fun _ => utf8_one, fun _ => utf8_two, fun _ => utf8_three, utf8_length, ?_⟩
  intro c d hc hd h
  rw [← utf8Code_utf8 hc, h, utf8Code_utf8 hd]

end Sys2Proof.Machine
end

section
/-! The validator (R120 to R131) on the bytes of a frame, and what its verdicts say of any bytes. -/

namespace Sys2Proof.Machine

variable {p : Params} {o : ByteOrder} {buf : List Byte} {f : Frame} {L : Nat}

/-- R128 with the lengths of R6 as numbers: the frame ends at `9 + N`, its tail stands at `8 + N`. -/
theorem validate_eq (o : ByteOrder) (buf : List Byte) :
    validate o buf =
      if buf.length < 9 then .incomplete
      else if 256 ≤ rd16 buf 6 then .invalid .len
      else if buf.length < 9 + rd16 buf 6 then .incomplete
      else if byteAt buf 0 ≠ headByte then .invalid .head
      else if byteAt buf (8 + rd16 buf 6) ≠ tailByte then .invalid .tail
      else if compute (neutralCopy (buf.take (9 + rd16 buf 6))) ≠ carriedOf o (byteAt buf 4) (byteAt buf 5) then
        .invalid .cksum
      else .valid (parseFrame (buf.take (9 + rd16 buf 6))) (9 + rd16 buf 6) := by
  have hend : 9 + rd16 buf 6 = headerSize + rd16 buf 6 + 1 := Nat.add_right_comm 8 1 _
  rw [hend]
  rfl

/-- R121, R123: bytes are missing when the header, or the frame it announces, is cut short. -/
theorem validate_eq_incomplete_iff :
    validate o buf = .incomplete ↔ buf.length < 9 ∨ (rd16 buf 6 < 256 ∧ buf.length < 9 + rd16 buf 6) := by
  rw [validate_eq]
  split_ifs with hnine hlen hcut <;> simp <;> omega

theorem length_lt_of_incomplete (h : validate o buf = .incomplete) : buf.length < 264 := by
  have hcut := validate_eq_incomplete_iff.1 h
  omega

/-- On a frame of a legal length only the checksum is left to decide, whatever follows. -/
theorem validate_bytes (o : ByteOrder) (f : Frame) (rest : List Byte) (h : f.len < 256) :
    validate o (f.bytes ++ rest)
      = if compute f.neutral.bytes = f.carried o then .valid f (9 + f.len) else .invalid .cksum := by
  have hnine : ¬ 9 + f.len + rest.length < 9 := by omega
  have hcarried : carriedOf o f.check4 f.check5 = f.carried o := rfl
  simp [validate_eq, f.rd16_6 rest h, h.not_ge, hnine, f.parse_bytes h, hcarried]

/-- R121 to R124: what the verdict `Valid` has already tested of the header and the tail. -/
theorem complete_of_validate_eq_valid (h : validate o buf = .valid f L) :
    rd16 buf 6 < 256 ∧ 9 + rd16 buf 6 ≤ buf.length
      ∧ byteAt buf 0 = headByte ∧ byteAt buf (8 + rd16 buf 6) = tailByte := by
  rw [validate_eq] at h
  split_ifs at h with _ hlen hcut hhead htail
  exact ⟨Nat.not_le.1 hlen, Nat.not_lt.1 hcut, not_not.1 hhead, not_not.1 htail⟩

/-- A complete candidate with both sentinels in place is the bytes of a frame record, with anything after it. -/
theorem exists_frame_of_complete (hN : rd16 buf 6 < 256) (hL : 9 + rd16 buf 6 ≤ buf.length)
    (hhead : byteAt buf 0 = headByte) (htail : byteAt buf (8 + rd16 buf 6) = tailByte) :
    ∃ (g : Frame) (rest : List Byte), g.len < 256 ∧ buf = g.bytes ++ rest := by
  have hr : rd16 (buf.take (9 + rd16 buf 6)) 6 = rd16 buf 6 := by
    rw [rd16, byteAt_take (by omega), byteAt_take (by omega), ← rd16]
  have hbytes : (parseFrame (buf.take (9 + rd16 buf 6))).bytes = buf.take (9 + rd16 buf 6) :=
    parse_bytes_eq (by rwa [hr]) (by simp [hr, hL]) (by rwa [byteAt_take (by omega)])
      (by rwa [hr, byteAt_take (by omega)])
  refine ⟨_, buf.drop (9 + rd16 buf 6), ?_, by rw [hbytes, List.take_append_drop]⟩
  have hlen := congrArg List.length hbytes
  rw [Frame.bytes_length, List.length_take] at hlen
  omega

theorem frame_ok_iff : f.ok o = true ↔ f.len < 256 ∧ compute f.neutral.bytes = f.carried o := by
  simp [Frame.ok]

theorem validate_eq_valid_iff :
    validate o buf = .valid f L ↔ f.ok o = true ∧ L = 9 + f.len ∧ ∃ rest, buf = f.bytes ++ rest := by
  constructor
  · intro h
    obtain ⟨hN, hL, hhead, htail⟩ := complete_of_validate_eq_valid h
    obtain ⟨g, rest, hg, rfl⟩ := exists_frame_of_complete hN hL hhead htail
    rw [validate_bytes o g rest hg] at h
    split_ifs at h with hsum
    obtain ⟨rfl, rfl⟩ := Verdict.valid.inj h
    exact ⟨frame_ok_iff.2 ⟨hg, hsum⟩, rfl, rest, rfl⟩
  · rintro ⟨hok, rfl, rest, rfl⟩
    obtain ⟨hlen, hsum⟩ := frame_ok_iff.1 hok
    rw [validate_bytes o f rest hlen, if_pos hsum]

/-- Settles O26: a complete candidate is the bytes of a frame, and on those the checksum alone decides. -/
theorem validatorAcceptsExactlyTheFrames : Obligations.ValidatorAcceptsExactlyTheFrames :=
  fun _ _ _ _ => validate_eq_valid_iff

/-! The decoder's verdicts are the validator's. -/

theorem decode_eq_incomplete_iff :
    decode p buf = .rejected .incomplete ↔ validate p.cksumOrder buf = .incomplete := by
  cases hv : validate p.cksumOrder buf <;> simp [decode, hv]

theorem decode_eq_ok_iff {i : Instr} :
    decode p buf = .ok i L ↔ ∃ f, validate p.cksumOrder buf = .valid f L ∧ i = select p f := by
  cases hv : validate p.cksumOrder buf <;> simp [decode, hv, and_comm, eq_comm]

/-- A decoded instruction takes nine bytes or more, all of them in hand. -/
theorem decode_ok_length {i : Instr} (h : decode p buf = .ok i L) : 9 ≤ L ∧ L ≤ buf.length := by
  obtain ⟨f, hf, -⟩ := decode_eq_ok_iff.1 h
  obtain ⟨-, rfl, rest, rfl⟩ := validate_eq_valid_iff.1 hf
  simp

end Sys2Proof.Machine
end

section
/-! What one call of `TRY_EXTRACT_ONE` changes (R22, R25, R33): the accumulator's front, `consumed` and the reply. -/

namespace Sys2Proof.Machine

variable {s t : State} {n : Nat}

/-- Every instruction only replies: one arm per row of the table. -/
theorem exec_eq_deliver (i : Instr) (s : State) : ∃ e, exec i s = s.deliver e := by
  cases i <;> exact ⟨_, rfl⟩

/-- R33 in the words of the validator: a state the scanner waits on. -/
theorem State.waiting_iff :
    s.Waiting ↔ s.acc = [] ∨ (s.acc.head? = some headByte
      ∧ validate s.params.cksumOrder s.acc = .incomplete ∧ s.acc.length ≤ 263) := by
  unfold State.Waiting
  have hmax : s.acc.length < maxFrame ↔ s.acc.length ≤ 263 := Nat.lt_succ_iff
  rw [decode_eq_incomplete_iff, hmax]
  cases s.acc <;> simp

/-- A call that answers `t` drops `n` bytes from the front of `s`, and waits or makes progress (R33). -/
structure ScanStep (s t : State) (n : Nat) : Prop where
  le_length : n ≤ s.acc.length
  eq_answer : t = (s.dropFront n).answer t.reply
  outcome : (t.reply = .needMoreData ∧ t.Waiting) ∨ (t.reply ≠ .needMoreData ∧ 0 < n)

theorem ScanStep.acc_eq (h : ScanStep s t n) : t.acc = s.acc.drop n := by rw [h.eq_answer]; rfl
theorem ScanStep.session_eq (h : ScanStep s t n) : t.session = s.session := by rw [h.eq_answer]; rfl
theorem ScanStep.params_eq (h : ScanStep s t n) : t.params = s.params := by rw [h.eq_answer]; rfl

theorem ScanStep.read_eq (h : ScanStep s t n) (a : Nat) : t.read a = s.read (a + n) := by
  rw [h.eq_answer, State.answer_read, State.dropFront_read, Nat.add_comm]

theorem ScanStep.waiting (h : ScanStep s t n) (hr : t.reply = .needMoreData) : t.Waiting := by
  rcases h.outcome with ⟨-, hw⟩ | ⟨hne, -⟩
  · exact hw
  · exact absurd hr hne

theorem ScanStep.length_lt (h : ScanStep s t n) (hr : t.reply ≠ .needMoreData) :
    t.acc.length < s.acc.length := by
  rcases h.outcome with ⟨heq, -⟩ | ⟨-, hpos⟩
  · exact absurd heq hr
  · have hle := h.le_length
    rw [h.acc_eq, List.length_drop]
    omega

/-- Noise dropped before a scan of the rest is part of the same call (D26). -/
theorem ScanStep.after_dropFront {k : Nat} (hk : k ≤ s.acc.length) (h : ScanStep (s.dropFront k) t n) :
    ScanStep s t (k + n) where
  le_length := by
    have hle := h.le_length
    rw [State.dropFront_acc, List.length_drop] at hle
    omega
  eq_answer := by
    have hdrop : (s.dropFront k).dropFront n = s.dropFront (k + n) := by
      simp [State.dropFront, Nat.add_assoc]
    rw [← hdrop]
    exact h.eq_answer
  outcome := h.outcome.imp_right fun ⟨hr, hn⟩ => ⟨hr, by omega⟩

theorem scanCandidate_scanStep {rest : List Byte} (hacc : s.acc = headByte :: rest)
    (h : scanCandidate s = .next t) : ∃ n, ScanStep s t n := by
  rcases scanCandidate_cases h with ⟨hd, rfl⟩ | ⟨c, -, rfl⟩ | ⟨i, L, hd, hexec⟩
  · have hlen := length_lt_of_incomplete (decode_eq_incomplete_iff.1 hd)
    exact ⟨0, Nat.zero_le _, rfl, .inl ⟨rfl, .inr ⟨by simp [hacc], hd, hlen⟩⟩⟩
  · exact ⟨1, by simp [hacc], rfl, .inr ⟨by simp, by decide⟩⟩
  · obtain ⟨hpos, hle⟩ := decode_ok_length hd
    obtain ⟨e, he⟩ := exec_eq_deliver i (s.dropFront L)
    rw [he] at hexec
    cases hexec
    exact ⟨L, hle, rfl, .inr ⟨by simp, by omega⟩⟩

/-- Every answer of `TRY_EXTRACT_ONE` only drops from the front, and waits or makes progress. -/
theorem tryExtractOne_scanStep (h : tryExtractOne s = .next t) : ∃ n, ScanStep s t n := by
  rcases tryExtractOne_cases h with ⟨-, rfl⟩ | ⟨noise, rest, hacc, -, hscan, hdrop⟩
  · exact ⟨s.acc.length, le_rfl, rfl, .inl ⟨rfl, .inl (by simp)⟩⟩
  · obtain ⟨n, hn⟩ := scanCandidate_scanStep hdrop hscan
    exact ⟨noise.length + n, hn.after_dropFront (by simp [hacc])⟩

/-- Settles O13: the outcome of a `ScanStep`, in the words of the validator. -/
theorem scannerWaitsOrProgresses : Obligations.ScannerWaitsOrProgresses := by
  intro s t h
  obtain ⟨n, hn⟩ := tryExtractOne_scanStep h
  by_cases hr : t.reply = .needMoreData
  · exact .inl ⟨hr, State.waiting_iff.1 (hn.waiting hr)⟩
  · exact .inr ⟨hr, hn.length_lt hr⟩

/-- Settles O14: the frame of a `ScanStep`. -/
theorem scannerOnlyDropsFromTheFront : Obligations.ScannerOnlyDropsFromTheFront := by
  intro s t h
  obtain ⟨n, hn⟩ := tryExtractOne_scanStep h
  exact ⟨n, hn.le_length, hn.eq_answer, hn.read_eq⟩

end Sys2Proof.Machine
end

section
/-! The host's drain (R110) ends: each call waits or shortens the accumulator. -/

namespace Sys2Proof.Machine

variable {s t : State}

theorem scanCandidate_answers (s : State) : ∃ t, scanCandidate s = .next t := by
  unfold scanCandidate
  split
  · exact ⟨_, rfl⟩
  · exact ⟨_, rfl⟩
  · next i L _ =>
    obtain ⟨e, he⟩ := exec_eq_deliver i (s.dropFront L)
    exact ⟨_, he⟩

/-- In a running session no call is refused and none faults (R101). -/
theorem tryExtractOne_answers (h : s.session = .running) : ∃ t, tryExtractOne s = .next t := by
  rw [tryExtractOne_running h, scan]
  cases s.findHead with
  | none => exact ⟨_, rfl⟩
  | some k => exact scanCandidate_answers _

theorem drainLoop_of_needMoreData (fuel : Nat) (h : tryExtractOne s = .next t)
    (hr : t.reply = .needMoreData) : drainLoop (fuel + 1) s = ([.needMoreData], t) := by
  simp [drainLoop, h, hr]

theorem drainLoop_of_progress (fuel : Nat) (h : tryExtractOne s = .next t)
    (hr : t.reply ≠ .needMoreData) :
    drainLoop (fuel + 1) s = (t.reply :: (drainLoop fuel t).1, (drainLoop fuel t).2) := by
  simp [drainLoop, h, hr]

/-- With fuel for one call more than there are bytes, the loop ends by its own test. -/
theorem drainLoop_ends_waiting {fuel : Nat} (hrun : s.session = .running) (hfuel : s.acc.length < fuel) :
    ∃ rs : List Reply, (drainLoop fuel s).1 = rs ++ [.needMoreData] ∧ .needMoreData ∉ rs
      ∧ rs.length ≤ s.acc.length ∧ (drainLoop fuel s).2.Waiting := by
  induction fuel generalizing s with
  | zero => omega
  | succ fuel ih =>
    obtain ⟨t, ht⟩ := tryExtractOne_answers hrun
    obtain ⟨n, hn⟩ := tryExtractOne_scanStep ht
    by_cases hr : t.reply = .needMoreData
    · rw [drainLoop_of_needMoreData fuel ht hr]
      exact ⟨[], rfl, List.not_mem_nil, Nat.zero_le _, hn.waiting hr⟩
    · have hlt := hn.length_lt hr
      obtain ⟨rs, hrs, hmem, hlen, hwait⟩ := ih (hn.session_eq.trans hrun) (by omega)
      rw [drainLoop_of_progress fuel ht hr]
      refine ⟨t.reply :: rs, by rw [hrs, List.cons_append], ?_, ?_, hwait⟩
      · exact List.not_mem_cons_of_ne_of_not_mem (Ne.symm hr) hmem
      · rw [List.length_cons]
        omega

/-- Settles O15: `drain` gives the loop just enough fuel. -/
theorem drainEndsWaiting : Obligations.DrainEndsWaiting :=
  fun _ hrun => drainLoop_ends_waiting hrun (Nat.lt_succ_self _)

end Sys2Proof.Machine
end

section
/-! What every operation of the host keeps (R30, R33, R222, R7), and what it refuses (R29, R228). -/

namespace Sys2Proof.Machine

variable {s t : State} {op : HostOp}

theorem perform_params (h : perform op s = .next t) : t.params = s.params := by
  rcases perform_cases h with ⟨-, -, rfl⟩ | ⟨b, -, -, rfl⟩ | ⟨-, hscan⟩ | ⟨-, -, rfl⟩
  case inr.inr.inl =>
    obtain ⟨n, hn⟩ := tryExtractOne_scanStep hscan
    exact hn.params_eq
  all_goals rfl

/-- Settles O58: a step is one of the host's operations, and none of them writes the parameters. -/
theorem stepNeverWritesTheParameters : Obligations.StepNeverWritesTheParameters :=
  ⟨fun _ _ h => perform_params (op := .tryExtractOne) h, fun _ _ _ h => perform_params h⟩

/-- An operation that answers without a result and leaves no bytes outside a session keeps the invariant. -/
theorem State.Inv.of_silent (hp : t.params.WF) (hc : t.session ≠ .running → t.acc = [])
    (hr : t.reply = .silent) : t.Inv where
  params := hp
  cleared := hc
  waiting hw := by rw [hr] at hw; cases hw

theorem ScanStep.keeps_inv {n : Nat} (hn : ScanStep s t n) (hinv : s.Inv) : t.Inv where
  params := by rw [hn.params_eq]; exact hinv.params
  cleared hs := by
    rw [hn.session_eq] at hs
    rw [hn.acc_eq, hinv.cleared hs, List.drop_nil]
  waiting := hn.waiting

theorem perform_keeps_inv (hinv : s.Inv) (h : perform op s = .next t) : t.Inv := by
  have hp : t.params.WF := by rw [perform_params h]; exact hinv.params
  rcases perform_cases h with ⟨-, -, rfl⟩ | ⟨b, -, hrun, rfl⟩ | ⟨-, hscan⟩ | ⟨-, -, rfl⟩
  · exact .of_silent hp (fun _ => rfl) rfl
  · exact .of_silent hp (fun hs => absurd hrun hs) rfl
  · obtain ⟨n, hn⟩ := tryExtractOne_scanStep hscan
    exact hn.keeps_inv hinv
  · exact .of_silent hp (fun _ => rfl) rfl

/-- Settles O59: a step is one of the host's operations, and each of them keeps the invariant. -/
theorem stepKeepsTheInvariant : Obligations.StepKeepsTheInvariant :=
  ⟨fun _ _ hinv h => perform_keeps_inv (op := .tryExtractOne) hinv h, fun _ _ _ => perform_keeps_inv⟩

/-- Settles O60: at reset the session is running, the accumulator empty and no result given. -/
theorem resetMeetsTheInvariant : Obligations.ResetMeetsTheInvariant :=
  .of_silent (by decide) (fun _ => rfl) rfl

theorem perform_start_of_running (h : s.session = .running) : perform .start s = s.refuse .start := by
  simp [perform, start, h]

theorem perform_of_not_running (h : s.session ≠ .running) (hop : op ≠ .start) :
    perform op s = s.refuse op := by
  cases hs : s.session with
  | running => exact absurd hs h
  | idle | stopped =>
    cases op with
    | start => exact absurd rfl hop
    | feed _ | tryExtractOne | stop => simp [perform, feed, tryExtractOne, stop, hs]

/-- Settles O3: each operation tests the session first, and a refusal names the operation and the session. -/
theorem operationsOutsideTheirSessionAreRefused : Obligations.OperationsOutsideTheirSessionAreRefused :=
  ⟨fun _ => perform_start_of_running, fun _ _ => perform_of_not_running⟩

end Sys2Proof.Machine
end

section
/-! Row selection (R70, R71): the opcode map row by row, and selection by a frame's code and filters. -/

namespace Sys2Proof.Machine

variable {p : Params} {f : Frame} {i : Instr} {r : OpcodeRow}

/-- R70: the codes and the rows written apart from the opcode map are the map's own, in its order. -/
theorem listedCodes_eq : listedCodes = opcodeMap.map OpcodeRow.code := rfl

theorem listedRows_eq (f : Frame) : listedRows f = opcodeMap.map (fun r => r.instr f) := rfl

theorem mem_listedCodes {c : Byte} : c ∈ listedCodes ↔ ∃ r ∈ opcodeMap, r.code = c := by
  rw [listedCodes_eq, List.mem_map]

theorem mem_listedRows : i ∈ listedRows f ↔ ∃ r ∈ opcodeMap, r.instr f = i := by
  rw [listedRows_eq, List.mem_map]

theorem frame_instr_of_mem (h : r ∈ opcodeMap) (f : Frame) : (r.instr f).frame = f := by
  have hall : ∀ r ∈ opcodeMap, (r.instr f).frame = f := by simp [opcodeMap, Instr.frame]
  exact hall r h

/-- A listed row's own condition is the code and the two filters of its entry in the map. -/
theorem ownRow_instr_of_mem (h : r ∈ opcodeMap) (p : Params) (f : Frame) :
    (r.instr f).ownRow p = (f.command == r.code && (dirHolds p r.direction f && lenHolds r.length f)) := by
  have hall : ∀ r ∈ opcodeMap, (r.instr f).ownRow p
      = (f.command == r.code && (dirHolds p r.direction f && lenHolds r.length f)) := by
    simp [opcodeMap, Instr.ownRow, dirHolds, lenHolds, Bool.and_assoc]
  exact hall r h

/-- No two rows share a code, so a row is found by its own. -/
theorem findRow_code (h : r ∈ opcodeMap) : findRow r.code = some r := by
  have hall : ∀ r ∈ opcodeMap, findRow r.code = some r := by simp [opcodeMap, findRow]
  exact hall r h

theorem findRow_of_not_mem {c : Byte} (h : c ∉ listedCodes) : findRow c = none := by
  rw [mem_listedCodes] at h
  refine List.find?_eq_none.2 fun r hr hc => h ⟨r, hr, ?_⟩
  exact beq_iff_eq.1 hc

theorem select_of_unlisted (p : Params) (h : f.command ∉ listedCodes) : select p f = .rawDump f := by
  rw [select, findRow_of_not_mem h]

/-- R71: the row that carries the frame's code is selected when its filters hold, and else the miss. -/
theorem select_of_row (p : Params) (hr : r ∈ opcodeMap) (hc : f.command = r.code) :
    select p f = if (r.instr f).ownRow p then r.instr f else .filterMiss f := by
  rw [select, hc, findRow_code hr, ownRow_instr_of_mem hr, hc, beq_self_eq_true, Bool.true_and]

theorem select_of_ownRow (hi : i ∈ listedRows f) (h : i.ownRow p = true) : select p f = i := by
  obtain ⟨r, hr, rfl⟩ := mem_listedRows.1 hi
  have hcode : f.command = r.code := by
    rw [ownRow_instr_of_mem hr, Bool.and_eq_true] at h
    exact beq_iff_eq.1 h.1
  rw [select_of_row p hr hcode, if_pos h]

theorem select_of_no_ownRow (hc : f.command ∈ listedCodes) (h : ∀ i ∈ listedRows f, i.ownRow p = false) :
    select p f = .filterMiss f := by
  obtain ⟨r, hr, hcode⟩ := mem_listedCodes.1 hc
  have hown := h _ (mem_listedRows.2 ⟨r, hr, rfl⟩)
  rw [select_of_row p hr hcode.symm, hown, if_neg Bool.false_ne_true]

/-- Settles O31: the row that carries the frame's code decides, and where none does the default row. -/
theorem rowSelectionFollowsTheMap : Obligations.RowSelectionFollowsTheMap :=
  fun p _ => ⟨select_of_unlisted p, fun _ => select_of_ownRow, select_of_no_ownRow⟩

end Sys2Proof.Machine
end

section
/-! Decoder and encoder (R60, R71, R128): an instruction is well formed exactly when it is the row its valid frame selects. -/

namespace Sys2Proof.Machine

variable {p : Params} {f : Frame} {i : Instr} {buf : List Byte} {L : Nat}

/-- Selection stays with the frame: it is the row's frame whichever of R71's three cases applies. -/
theorem frame_select (p : Params) (f : Frame) : (select p f).frame = f := by
  by_cases hc : f.command ∈ listedCodes
  · obtain ⟨r, hr, hcode⟩ := mem_listedCodes.1 hc
    rw [select_of_row p hr hcode.symm]
    split
    · exact frame_instr_of_mem hr f
    · rfl
  · rw [select_of_unlisted p hc]
    rfl

theorem rowOk_filterMiss_iff : (Instr.filterMiss f).rowOk p = true
    ↔ f.command ∈ listedCodes ∧ ∀ i ∈ listedRows f, i.ownRow p = false := by
  simp [Instr.rowOk]

theorem rowOk_rawDump_iff : (Instr.rawDump f).rowOk p = true ↔ f.command ∉ listedCodes := by
  simp [Instr.rowOk]

/-- For the listed rows the row condition is the row's own. -/
theorem rowOk_of_mem_listedRows (h : i ∈ listedRows f) : i.rowOk p = i.ownRow p := by
  have hall : ∀ i ∈ listedRows f, i.rowOk p = i.ownRow p := by simp [listedRows, Instr.rowOk]
  exact hall i h

/-- An instruction is a listed row on its frame, the miss, or the dump. -/
theorem mem_listedRows_or_default (i : Instr) :
    i ∈ listedRows i.frame ∨ i = .filterMiss i.frame ∨ i = .rawDump i.frame := by
  cases i with
  | filterMiss f => exact .inr (.inl rfl)
  | rawDump f => exact .inr (.inr rfl)
  | _ f => exact .inl (by simp [listedRows, Instr.frame])

theorem select_frame_of_rowOk (h : i.rowOk p = true) : select p i.frame = i := by
  rcases mem_listedRows_or_default i with hi | hi | hi
  · rw [rowOk_of_mem_listedRows hi] at h
    exact select_of_ownRow hi h
  · rw [hi, rowOk_filterMiss_iff] at h
    obtain ⟨hlisted, hnone⟩ := h
    rw [hi]
    exact select_of_no_ownRow hlisted hnone
  · rw [hi, rowOk_rawDump_iff] at h
    rw [hi]
    exact select_of_unlisted p h

theorem rowOk_select (p : Params) (f : Frame) : (select p f).rowOk p = true := by
  by_cases hc : f.command ∈ listedCodes
  · by_cases hown : ∃ i ∈ listedRows f, i.ownRow p = true
    · obtain ⟨i, hi, h⟩ := hown
      rw [select_of_ownRow hi h, rowOk_of_mem_listedRows hi, h]
    · have hmiss : ∀ i ∈ listedRows f, i.ownRow p = false := by simpa using hown
      rw [select_of_no_ownRow hc hmiss, rowOk_filterMiss_iff]
      exact ⟨hc, hmiss⟩
  · rw [select_of_unlisted p hc, rowOk_rawDump_iff]
    exact hc

theorem wellFormed_iff : WellFormed p i = true ↔ i.frame.ok p.cksumOrder = true ∧ i.rowOk p = true :=
  Bool.and_eq_true_iff

theorem decode_encode_append (rest : List Byte) (h : WellFormed p i = true) :
    decode p (encode i ++ rest) = .ok i (encode i).length := by
  obtain ⟨hok, hrow⟩ := wellFormed_iff.1 h
  have hvalid : validate p.cksumOrder (encode i ++ rest) = .valid i.frame (encode i).length :=
    validate_eq_valid_iff.2 ⟨hok, i.frame.bytes_length, rest, rfl⟩
  exact decode_eq_ok_iff.2 ⟨i.frame, hvalid, (select_frame_of_rowOk hrow).symm⟩

/-- Settles O29: the validator gives the frame back, and a well-formed instruction is the row its frame selects. -/
theorem decodeInvertsEncode : Obligations.DecodeInvertsEncode :=
  fun _ _ rest h => decode_encode_append rest h

theorem wellFormed_of_decode (h : decode p buf = .ok i L) :
    WellFormed p i = true ∧ L = (encode i).length ∧ ∃ rest, buf = encode i ++ rest := by
  obtain ⟨f, hvalid, rfl⟩ := decode_eq_ok_iff.1 h
  obtain ⟨hok, rfl, rest, rfl⟩ := validate_eq_valid_iff.1 hvalid
  rw [wellFormed_iff, encode, frame_select, Frame.bytes_length]
  exact ⟨⟨hok, rowOk_select p f⟩, rfl, rest, rfl⟩

/-- Settles O30: accepted bytes are those of a valid frame, and the row selected for it is well formed. -/
theorem encodeInvertsDecode : Obligations.EncodeInvertsDecode := by
  intro p buf i L h
  obtain ⟨hwf, rfl, rest, rfl⟩ := wellFormed_of_decode h
  exact ⟨hwf, by simp, List.take_left⟩

/-- Settles O32: each word is the encoding of a well-formed instruction, with nothing after it. -/
theorem exampleWordsDecode : Obligations.ExampleWordsDecode :=
  ⟨decode_encode_append (i := .setRxVolume ⟨0x02#8, 0x01#8, 0x00#8, 0x76#8, 0xEC#8, [0x20#8]⟩) [] (by decide),
    decode_encode_append (i := .signalCheck ⟨0x05#8, 0x01#8, 0x00#8, 0x86#8, 0xFA#8, []⟩) [] (by decide),
    decode_encode_append (i := .rawDump ⟨0x70#8, 0x01#8, 0x00#8, 0xDB#8, 0xD1#8, [0xAA#8, 0xBB#8]⟩) [] (by decide),
    decode_encode_append (i := .filterMiss ⟨0x0B#8, 0x01#8, 0x00#8, 0x86#8, 0xF4#8, []⟩) [] (by decide)⟩

end Sys2Proof.Machine
end

section
/-! The direction byte (R64, R136): the predicates test it against the three codes, which R7 keeps apart. -/

namespace Sys2Proof.Machine

variable {p : Params} {b : Byte} {f : Frame}

theorem isToDevice_iff : f.isToDevice = true ↔ f.direction = dirToDevice := beq_iff_eq

theorem isToHost_iff : f.isToHost p = true ↔ f.direction = p.dirToHost := beq_iff_eq

theorem isUpload_iff : f.isUpload p = true ↔ f.direction = p.dirUpload := beq_iff_eq

theorem decodeDirection_eq_toDevice_iff : decodeDirection p b = .toDevice ↔ b = dirToDevice := by
  unfold decodeDirection
  split_ifs with hdev <;> simp [hdev]

theorem decodeDirection_eq_toHost_iff (hp : p.dirToHost ≠ dirToDevice) :
    decodeDirection p b = .toHost ↔ b = p.dirToHost := by
  unfold decodeDirection
  split_ifs with hdev hhost
  · simp [hdev, hp.symm]
  all_goals simp [hhost]

theorem decodeDirection_eq_upload_iff (hp : p.dirUpload ≠ dirToDevice) (hne : p.dirToHost ≠ p.dirUpload) :
    decodeDirection p b = .upload ↔ b = p.dirUpload := by
  unfold decodeDirection
  split_ifs with hdev hhost hup
  · simp [hdev, hp.symm]
  · simp [hhost, hne]
  all_goals simp [hup]

theorem decodeDirection_eq_other_iff :
    decodeDirection p b = .other b ↔ b ≠ dirToDevice ∧ b ≠ p.dirToHost ∧ b ≠ p.dirUpload := by
  unfold decodeDirection
  split_ifs with hdev hhost hup <;> simp [*]

/-- Settles O56: R7 keeps the three codes apart, so the order of the tests in R64 does not matter. -/
theorem directionPredicatesDecodeTheByte : Obligations.DirectionPredicatesDecodeTheByte := by
  rintro p f ⟨hhost, hup, hne⟩
  refine ⟨?_, ?_, ?_, ?_⟩
  · rw [isToDevice_iff, decodeDirection_eq_toDevice_iff]
  · rw [isToHost_iff, decodeDirection_eq_toHost_iff hhost]
  · rw [isUpload_iff, decodeDirection_eq_upload_iff hup hne]
  · simp only [decodeDirection_eq_other_iff, ← Bool.not_eq_true, isToDevice_iff, isToHost_iff, isUpload_iff]

end Sys2Proof.Machine
end

section
/-! Rows executed on a frame their filters do not admit (R70, R139). -/

namespace Sys2Proof.Machine

variable {f : Frame} {r : OpcodeRow}

/-- Each row tests the filters of its own entry of the opcode map, and answers `miss` where they fail (R70). -/
theorem exec_instr_of_not_admitted (hr : r ∈ opcodeMap) (s : State)
    (h : (dirHolds s.params r.direction f && lenHolds r.length f) = false) :
    exec (r.instr f) s = s.deliver (miss s.params f) := by
  have hall : ∀ r ∈ opcodeMap, (dirHolds s.params r.direction f && lenHolds r.length f) = false →
      exec (r.instr f) s = s.deliver (miss s.params f) := by
    simp only [opcodeMap, List.cons_append, List.nil_append, List.forall_mem_cons, List.not_mem_nil,
      dirHolds, lenHolds, Bool.and_true, Bool.true_and, Bool.true_eq_false, false_imp_iff, implies_true, true_and,
      and_true]
    and_intros
    all_goals exact fun hfilter => congrArg s.deliver (if_neg (by simpa using hfilter))
  exact hall r hr h

theorem exec_miss_of_direction {d : DirFilter} (s : State) (h : dirHolds s.params d f = false) :
    ∀ i ∈ (opcodeMap.filter (fun r => r.direction = d)).map (fun r => r.instr f),
      exec i s = s.deliver (miss s.params f) := by
  intro i hi
  obtain ⟨r, hr, rfl⟩ := List.mem_map.1 hi
  obtain ⟨hmem, hd⟩ := List.mem_filter.1 hr
  refine exec_instr_of_not_admitted hmem s ?_
  rw [of_decide_eq_true hd, h, Bool.false_and]

theorem exec_miss_of_length {l : LenFilter} (s : State) (h : lenHolds l f = false) :
    ∀ i ∈ (opcodeMap.filter (fun r => r.length = l)).map (fun r => r.instr f),
      exec i s = s.deliver (miss s.params f) := by
  intro i hi
  obtain ⟨r, hr, rfl⟩ := List.mem_map.1 hi
  obtain ⟨hmem, hl⟩ := List.mem_filter.1 hr
  refine exec_instr_of_not_admitted hmem s ?_
  rw [of_decide_eq_true hl, h, Bool.and_false]

/-- Settles O50: each clause takes the rows of the opcode map with one filter, and the frame fails it. -/
theorem filteredRowsGiveTheMiss : Obligations.FilteredRowsGiveTheMiss := by
  intro f s
  refine ⟨fun hdir => ?_, fun hdir => ?_, fun hdir => ?_, fun hlen => ?_, fun hlen => ?_, fun hlen => ?_,
    fun hlen => ?_, fun hlen => ?_, fun hlen => ?_⟩
  · exact exec_miss_of_direction (d := .toDevice) s (beq_false_of_ne hdir)
  · exact exec_miss_of_direction (d := .upload) s (beq_false_of_ne hdir)
  · exact exec_miss_of_direction (d := .toHost) s (beq_false_of_ne hdir) _ (.head _)
  · exact exec_miss_of_length (l := .exactly 1) s (beq_false_of_ne hlen)
  · exact exec_miss_of_length (l := .exactly 4) s (beq_false_of_ne hlen)
  · exact exec_miss_of_length (l := .exactly 34) s (beq_false_of_ne hlen) _ (.head _)
  · exact exec_miss_of_length (l := .exactly 10) s (beq_false_of_ne hlen) _ (.head _)
  · exact exec_miss_of_length (l := .atLeast 7) s (decide_eq_false (Nat.not_le.2 hlen)) _ (.head _)
  · exact exec_miss_of_length (l := .exactly 20) s (beq_false_of_ne hlen) _ (.head _)

end Sys2Proof.Machine
end

section
/-! The one's-complement sum (R90 to R96): the fold keeps the residue modulo 65535, and on a frame the sum splits into the
carried word and the rest. -/

namespace Sys2Proof

/-- The sum of a frame's words without its checksum field (R60, R90); the length field stands for itself (R66). -/
def Frame.sumOutsideField (f : Frame) : Nat :=
  Machine.headByte.toNat * 256 + f.command.toNat + (f.direction.toNat * 256 + f.sequence.toNat) + f.len
    + Machine.wordSum (f.payload ++ [Machine.tailByte])

/-- The head word keeps the rest of the sum away from 0. -/
theorem Frame.sumOutsideField_pos (f : Frame) : 0 < f.sumOutsideField := by
  simp only [Frame.sumOutsideField, Machine.headByte, BitVec.toNat_ofNat]
  omega

end Sys2Proof

namespace Sys2Proof.Machine

variable {f : Frame}

/-! The fold. -/

theorem foldCarry_succ_of_lt {v : Nat} (fuel : Nat) (h : v < 65536) : foldCarry (fuel + 1) v = v :=
  if_pos (Nat.div_eq_of_lt h)

theorem foldCarry_succ_of_le {v : Nat} (fuel : Nat) (h : 65536 ≤ v) :
    foldCarry (fuel + 1) v = foldCarry fuel (v % 65536 + v / 65536) :=
  if_neg (by omega)

/-- A pass adds the carry back where it weighs 1: 65536 is 1 modulo 65535. -/
theorem foldCarry_mod (fuel v : Nat) : foldCarry fuel v % 65535 = v % 65535 := by
  induction fuel generalizing v with
  | zero => rfl
  | succ fuel ih =>
    obtain h | h := Nat.lt_or_ge v 65536
    · rw [foldCarry_succ_of_lt fuel h]
    · rw [foldCarry_succ_of_le fuel h, ih]
      omega

theorem foldCarry_eq_zero_iff (fuel v : Nat) : foldCarry fuel v = 0 ↔ v = 0 := by
  induction fuel generalizing v with
  | zero => rfl
  | succ fuel ih =>
    obtain h | h := Nat.lt_or_ge v 65536
    · rw [foldCarry_succ_of_lt fuel h]
    · rw [foldCarry_succ_of_le fuel h, ih]
      omega

/-- The first pass leaves at most 131070, the second no carry. -/
theorem foldCarry_two_lt {v : Nat} (hv : v < 2 ^ 32) : foldCarry 2 v < 65536 := by
  obtain h | h := Nat.lt_or_ge v 65536
  · rwa [foldCarry_succ_of_lt 1 h]
  · rw [foldCarry_succ_of_le 1 h]
    obtain h' | h' := Nat.lt_or_ge (v % 65536 + v / 65536) 65536
    · rwa [foldCarry_succ_of_lt 0 h']
    · rw [foldCarry_succ_of_le 0 h', foldCarry]
      omega

/-- Settles O19: each pass keeps the residue and whether the sum is 0; the second leaves no carry. -/
theorem foldIsTheResidueModulo65535 : Obligations.FoldIsTheResidueModulo65535 :=
  fun v hv => ⟨foldCarry_two_lt hv, foldCarry_eq_zero_iff 2 v, foldCarry_mod 2 v⟩

/-- The fold of a sum above 0 is its residue in 1 .. 65535. -/
theorem foldCarry_two_of_pos {v : Nat} (h0 : 0 < v) (hv : v < 2 ^ 32) : foldCarry 2 v = (v - 1) % 65535 + 1 := by
  have hlt := foldCarry_two_lt hv
  have hzero := foldCarry_eq_zero_iff 2 v
  have hmod := foldCarry_mod 2 v
  omega

/-! The sum of a frame's words. -/

theorem wordSum_le (b : List Byte) : wordSum b ≤ 65535 * b.length := by
  induction b using wordSum.induct with
  | case1 => exact Nat.le_refl 0
  | case2 b =>
    have := b.isLt
    simp only [wordSum, List.length_singleton]
    omega
  | case3 a b rest ih =>
    have := a.isLt
    have := b.isLt
    simp only [wordSum, List.length_cons]
    omega

theorem carriedOf_bigEndian_toNat (b4 b5 : Byte) :
    (carriedOf .bigEndian b4 b5).toNat = b4.toNat * 256 + b5.toNat := by
  have := b4.isLt
  have := b5.isLt
  rw [carriedOf, BitVec.toNat_ofNat]
  omega

theorem wordSum_bytes (h : f.len < 256) :
    wordSum f.bytes = f.sumOutsideField + (f.carried .bigEndian).toNat := by
  rw [Frame.carried, carriedOf_bigEndian_toNat, Frame.sumOutsideField, ← List.append_nil f.bytes, f.bytes_append]
  simp only [wordSum, hiByte_of_lt h, loByte_toNat h, BitVec.toNat_zero]
  omega

/-- A frame is short enough that its sum stays below 32 bits (R92). -/
theorem wordSum_bytes_lt (h : f.len < 256) : wordSum f.bytes < 2 ^ 32 := by
  have hle := wordSum_le f.bytes
  rw [f.bytes_length] at hle
  omega

theorem foldCarry_wordSum_bytes (h : f.len < 256) :
    foldCarry 2 (wordSum f.bytes) = (f.sumOutsideField + (f.carried .bigEndian).toNat - 1) % 65535 + 1 := by
  have hlt := wordSum_bytes_lt h
  rw [wordSum_bytes h] at hlt ⊢
  exact foldCarry_two_of_pos (Nat.add_pos_left f.sumOutsideField_pos _) hlt

/-! The checksum is the complement of the fold. -/

theorem compute_toNat {b : List Byte} (h : wordSum b < 2 ^ 32) :
    (compute b).toNat = 65535 - foldCarry 2 (wordSum b) := by
  have hnot : ∀ x : Word, x ^^^ 0xFFFF#16 = ~~~x := fun _ => BitVec.xor_allOnes
  rw [compute, hnot, BitVec.toNat_not, BitVec.toNat_ofNat, Nat.mod_eq_of_lt h, Nat.mod_eq_of_lt (foldCarry_two_lt h)]

theorem compute_bytes_toNat (h : f.len < 256) :
    (compute f.bytes).toNat = 65534 - (f.sumOutsideField + (f.carried .bigEndian).toNat - 1) % 65535 := by
  rw [compute_toNat (wordSum_bytes_lt h), foldCarry_wordSum_bytes h]
  exact Nat.add_sub_add_right 65534 1 _

theorem compute_withField_toNat (b4 b5 : Byte) (h : f.len < 256) :
    (compute ({ f with check4 := b4, check5 := b5 } : Frame).bytes).toNat
      = 65534 - (f.sumOutsideField + (b4.toNat * 256 + b5.toNat) - 1) % 65535 := by
  rw [← carriedOf_bigEndian_toNat]
  exact compute_bytes_toNat (f := { f with check4 := b4, check5 := b5 }) h

/-- A field of 0xFFFF adds 65535 to the sum, which the fold does not see (R94). -/
theorem compute_neutral_toNat (h : f.len < 256) :
    (compute f.neutral.bytes).toNat = 65534 - (f.sumOutsideField - 1) % 65535 := by
  have hpos := f.sumOutsideField_pos
  rw [Frame.neutral, compute_withField_toNat neutralByte neutralByte h, neutralByte, BitVec.toNat_ofNat]
  omega

/-- Settles O20: 0xFFFF and 0 are the same field modulo 65535, and the head word keeps the sum above 0. -/
theorem neutralFieldEqualsZeroedField : Obligations.NeutralFieldEqualsZeroedField := by
  intro f h
  refine BitVec.eq_of_toNat_eq ?_
  rw [compute_neutral_toNat h, compute_withField_toNat 0x00#8 0x00#8 h, BitVec.toNat_zero, Nat.zero_mul, Nat.add_zero]

/-- Settles O21: both sides say that the carried word is the complement of the rest of the sum, reduced to 1 .. 65535. -/
theorem checkIsTheOnesComplementSum : Obligations.CheckIsTheOnesComplementSum := by
  intro f h
  have hpos := f.sumOutsideField_pos
  have hlt := (f.carried .bigEndian).isLt
  have hffff : (0xFFFF#16).toNat = 65535 := rfl
  rw [← BitVec.toNat_inj, ne_eq, ← BitVec.toNat_inj, compute_neutral_toNat h, foldCarry_wordSum_bytes h, hffff]
  omega

end Sys2Proof.Machine
end

section
/-! Executing the selected row is `interpret` (R71, R135): each row's meaning is the arm of `interpret` for its code. -/

namespace Sys2Proof.Machine

variable {s : State} {f : Frame} {r : OpcodeRow}

theorem exec_instr_of_code (hr : r ∈ opcodeMap) (hc : f.command = r.code) (s : State) :
    exec (r.instr f) s = s.deliver (interpret s.params f) := by
  have hall : ∀ r ∈ opcodeMap, f.command = r.code → exec (r.instr f) s = s.deliver (interpret s.params f) := by
    obtain ⟨command, direction, sequence, check4, check5, payload⟩ := f
    simp only [opcodeMap, List.cons_append, List.nil_append, List.forall_mem_cons, List.not_mem_nil, false_imp_iff,
      implies_true, and_true]
    and_intros
    all_goals
      intro hcode
      subst hcode
      rfl
  exact hall r hr hc

theorem interpret_of_unlisted (p : Params) (h : f.command ∉ listedCodes) : interpret p f = eventRawDump p f := by
  have hne : ∀ n, f.command.toNat = n → BitVec.ofNat 8 n ∉ listedCodes := by
    rintro n rfl
    rwa [BitVec.ofNat_toNat, BitVec.setWidth_eq]
  unfold interpret
  split
  case h_22 => rfl
  all_goals next hcode => exact absurd (by decide) (hne _ hcode)

/-- A listed row that is not admitted answers the miss, as `FILTER_MISS` does, so the filters of R71 do not matter here. -/
theorem exec_select (s : State) (f : Frame) : exec (select s.params f) s = s.deliver (interpret s.params f) := by
  by_cases hc : f.command ∈ listedCodes
  · obtain ⟨r, hr, hcode⟩ := mem_listedCodes.1 hc
    have hexec := exec_instr_of_code hr hcode.symm s
    rw [select, ← hcode, findRow_code hr]
    dsimp only
    split_ifs with hfilter
    · exact hexec
    · rw [← hexec, exec_instr_of_not_admitted hr s (eq_false_of_ne_true hfilter)]
      rfl
  · rw [select_of_unlisted _ hc, interpret_of_unlisted _ hc]
    rfl

end Sys2Proof.Machine
end

section
/-! What `TRY_EXTRACT_ONE` answers, verdict by verdict (R101 to R108). -/

namespace Sys2Proof.Machine

variable {s t : State} {noise rest : List Byte} {f : Frame} {c : Cause} {p : Params} {buf : List Byte}

theorem decode_of_invalid (h : validate p.cksumOrder buf = .invalid c) : decode p buf = .rejected (.invalid c) := by
  rw [decode, h]

theorem decode_of_ok (h : f.ok p.cksumOrder = true) (rest : List Byte) :
    decode p (f.bytes ++ rest) = .ok (select p f) (9 + f.len) :=
  decode_eq_ok_iff.2 ⟨f, validate_eq_valid_iff.2 ⟨h, rfl, rest, rfl⟩, rfl⟩

theorem scanCandidate_of_incomplete (h : validate s.params.cksumOrder s.acc = .incomplete) :
    scanCandidate s = .next s.needMoreData := by
  rw [scanCandidate, decode_eq_incomplete_iff.2 h]

theorem scanCandidate_of_invalid (h : validate s.params.cksumOrder s.acc = .invalid c) :
    scanCandidate s = .next s.resynchronize := by
  rw [scanCandidate, decode_of_invalid h]

/-- A valid frame at the front is dropped whole, and its event is what `interpret` says (R108). -/
theorem scanCandidate_of_frame (hok : f.ok s.params.cksumOrder = true) (hacc : s.acc = f.bytes ++ rest) :
    scanCandidate s = (s.dropFront (9 + f.len)).deliver (interpret s.params f) := by
  rw [scanCandidate, hacc, decode_of_ok hok]
  exact exec_select (s.dropFront (9 + f.len)) f

theorem tryExtractOne_of_noHead (hrun : s.session = .running) (h : headByte ∉ s.acc) :
    tryExtractOne s = .next (s.dropFront s.acc.length).needMoreData := by
  rw [tryExtractOne_running hrun, scan_noHead h]

theorem tryExtractOne_of_noise (hrun : s.session = .running) (hn : headByte ∉ noise)
    (hacc : s.acc = noise ++ headByte :: rest) :
    tryExtractOne s = scanCandidate (s.dropFront noise.length) := by
  rw [tryExtractOne_running hrun, scan_noise hn hacc]

theorem tryExtractOne_of_head (hrun : s.session = .running) (hacc : s.acc = headByte :: rest) :
    tryExtractOne s = scanCandidate s :=
  tryExtractOne_of_noise (noise := []) hrun List.not_mem_nil hacc

theorem tryExtractOne_of_frame (hrun : s.session = .running) (hok : f.ok s.params.cksumOrder = true)
    (hacc : s.acc = f.bytes ++ rest) :
    tryExtractOne s = (s.dropFront (9 + f.len)).deliver (interpret s.params f) := by
  rw [tryExtractOne_of_head hrun (hacc.trans (f.bytes_append rest)), scanCandidate_of_frame hok hacc]

/-- On a state it waits on, the scanner only replies (R106). -/
theorem tryExtractOne_of_waiting (hrun : s.session = .running) (hw : s.Waiting) :
    tryExtractOne s = .next s.needMoreData := by
  obtain hnil | ⟨hhead, hinc, -⟩ := State.waiting_iff.1 hw
  · rw [tryExtractOne_of_noHead hrun (by simp [hnil]), hnil]
    rfl
  · obtain ⟨rest, hacc⟩ := List.head?_eq_some_iff.1 hhead
    rw [tryExtractOne_of_head hrun hacc, scanCandidate_of_incomplete hinc]

/-- The scanner does not see noise that is no longer there: dropping it first changes nothing (D26). -/
theorem tryExtractOne_dropFront_noise (hrun : s.session = .running) (hn : headByte ∉ noise)
    (hacc : s.acc = noise ++ rest) : tryExtractOne (s.dropFront noise.length) = tryExtractOne s := by
  have hdrop : (s.dropFront noise.length).acc = rest := by simp [hacc]
  have hrun' : (s.dropFront noise.length).session = .running := hrun
  by_cases hhead : headByte ∈ rest
  · obtain ⟨noise', rest', rfl, hn'⟩ := List.eq_append_cons_of_mem hhead
    have hall : headByte ∉ noise ++ noise' := List.not_mem_append hn hn'
    rw [tryExtractOne_of_noise hrun' hn' hdrop, tryExtractOne_of_noise (rest := rest') hrun hall (by simp [hacc])]
    simp [State.dropFront, Nat.add_assoc]
  · have hall : headByte ∉ s.acc := hacc ▸ List.not_mem_append hn hhead
    rw [tryExtractOne_of_noHead hrun' (hdrop ▸ hhead), tryExtractOne_of_noHead hrun hall, hdrop]
    simp [State.dropFront, hacc, Nat.add_assoc]

/-- Settles O6: the whole accumulator is noise. -/
theorem noHeadDropsEverything : Obligations.NoHeadDropsEverything := by
  intro s hrun hno
  rw [tryExtractOne_of_noHead hrun hno, State.dropFront, List.drop_length]
  rfl

/-- Settles O7: the state with the noise dropped is one that `tryExtractOne_dropFront_noise` speaks of. -/
theorem leadingNoiseIsDroppedInTheSameCall : Obligations.LeadingNoiseIsDroppedInTheSameCall := by
  intro s noise rest hrun hn hacc
  rw [← tryExtractOne_dropFront_noise hrun hn hacc, State.dropFront, hacc, List.drop_left]

/-- Settles O8: the reply is no part of waiting, so the scanner waits on both states. -/
theorem incompleteCandidateIsLeftUntouched : Obligations.IncompleteCandidateIsLeftUntouched := by
  intro s hrun hhead hinc
  have hw : s.Waiting := State.waiting_iff.2 (.inr ⟨hhead, hinc, Nat.le_of_lt_succ (length_lt_of_incomplete hinc)⟩)
  exact ⟨tryExtractOne_of_waiting hrun hw, tryExtractOne_of_waiting (s := s.needMoreData) hrun hw⟩

/-- Settles O9: the scanner waits on a state it answered `NeedMoreData` with. -/
theorem reofferIsIdempotent : Obligations.ReofferIsIdempotent := by
  intro s t h hr
  obtain ⟨n, hn⟩ := tryExtractOne_scanStep h
  have hrun : t.session = .running := hn.session_eq.trans (tryExtractOne_next_running h)
  have hsame : t.needMoreData = t := by rw [State.needMoreData, ← hr]; rfl
  rw [tryExtractOne_of_waiting hrun (hn.waiting hr), hsame]

/-- Settles O10: every cause of `Invalid` is taken as `State.resynchronize`. -/
theorem invalidCandidateDropsOneByte : Obligations.InvalidCandidateDropsOneByte := by
  intro s rest c hrun hacc hinv
  rw [tryExtractOne_of_head hrun hacc, scanCandidate_of_invalid hinv, State.resynchronize, State.dropFront, hacc]
  rfl

/-- Settles O11: the validator accepts the frame whatever follows, and its row answers what `interpret` says. -/
theorem validFrameIsDeliveredAndDropped : Obligations.ValidFrameIsDeliveredAndDropped := by
  intro s f rest hrun hok hacc
  rw [tryExtractOne_of_frame hrun hok hacc, State.dropFront, hacc, Frame.drop_bytes]
  rfl

/-- What a call on a candidate found, verdict by verdict. -/
theorem scanCandidate_verdict (h : scanCandidate s = .next t) :
    (validate s.params.cksumOrder s.acc = .incomplete ∧ t = s.needMoreData)
    ∨ (∃ c, validate s.params.cksumOrder s.acc = .invalid c ∧ t = s.resynchronize)
    ∨ (∃ f rest, f.ok s.params.cksumOrder = true ∧ s.acc = f.bytes ++ rest
        ∧ t = (s.dropFront (9 + f.len)).answer (.frame (interpret s.params f))) := by
  cases hv : validate s.params.cksumOrder s.acc with
  | incomplete =>
    rw [scanCandidate_of_incomplete hv] at h
    exact .inl ⟨rfl, (Host.Outcome.next.inj h).symm⟩
  | invalid c =>
    rw [scanCandidate_of_invalid hv] at h
    exact .inr (.inl ⟨c, rfl, (Host.Outcome.next.inj h).symm⟩)
  | valid f L =>
    obtain ⟨hok, -, rest, hacc⟩ := validate_eq_valid_iff.1 hv
    rw [scanCandidate_of_frame hok hacc] at h
    exact .inr (.inr ⟨f, rest, hok, hacc, (Host.Outcome.next.inj h).symm⟩)

/-- Settles O12: of the three verdicts only `Valid` answers a `Frame`. -/
theorem frameResultComesFromAValidFrame : Obligations.FrameResultComesFromAValidFrame := by
  intro s t e h hr
  rcases tryExtractOne_cases h with ⟨-, rfl⟩ | ⟨noise, rest, hacc, hn, hscan, hdrop⟩
  · cases hr
  rcases scanCandidate_verdict hscan with ⟨-, rfl⟩ | ⟨c, -, rfl⟩ | ⟨f, after, hok, hframe, rfl⟩
  · cases hr
  · cases hr
  · refine ⟨noise, f, hn, hok, ?_, (Reply.frame.inj hr).symm, ?_⟩
    · rw [State.answer_acc, State.dropFront_acc, hframe, Frame.drop_bytes, hacc, ← hdrop, hframe, List.append_assoc]
    · rw [Frame.bytes_length]
      rfl

/-- Settles O5: the head search splits the accumulator, and the candidate decodes to the row of a valid frame. -/
theorem stepRunsTheDecodedInstruction : Obligations.StepRunsTheDecodedInstruction := by
  intro s k L i hrun hk hdecode
  obtain ⟨noise, rest, hacc, rfl, hn⟩ := findByte_eq_some hk
  have hcandidate : decode (s.dropFront noise.length).params (s.dropFront noise.length).acc = .ok i L := hdecode
  refine ⟨(wellFormed_of_decode hdecode).1, ?_⟩
  rw [step_eq, tryExtractOne_of_noise hrun hn hacc, scanCandidate, hcandidate]
  rfl

end Sys2Proof.Machine
end

section
/-! The drain call by call (R110): what it does depends only on what its first call answers. -/

namespace Sys2Proof.Machine

variable {s t s' : State}

/-- The induction of the drain: the accumulator shortens with every call that does not answer `NeedMoreData` (R33 I3). -/
theorem drain_induction {P : (s : State) → s.session = .running → Prop}
    (call : ∀ s t hrun hrun', tryExtractOne s = .next t → (t.reply ≠ .needMoreData → P t hrun') → P s hrun)
    (s : State) (hrun : s.session = .running) : P s hrun := by
  induction hlen : s.acc.length using Nat.strong_induction_on generalizing s with
  | _ len ih =>
    obtain ⟨t, ht⟩ := tryExtractOne_answers hrun
    obtain ⟨n, hn⟩ := tryExtractOne_scanStep ht
    exact call s t hrun (hn.session_eq.trans hrun) ht fun hr => ih _ (hlen ▸ hn.length_lt hr) t _ rfl

/-- Fuel beyond one call more than there are bytes is never used. -/
theorem drainLoop_eq_drain {fuel : Nat} (hrun : s.session = .running) (hfuel : s.acc.length < fuel) :
    drainLoop fuel s = drain s := by
  induction s, hrun using drain_induction generalizing fuel with
  | call s t hrun hrun' ht ih =>
    obtain ⟨fuel, rfl⟩ := Nat.exists_eq_add_one_of_ne_zero (Nat.ne_zero_of_lt hfuel)
    by_cases hr : t.reply = .needMoreData
    · rw [drain, drainLoop_of_needMoreData _ ht hr, drainLoop_of_needMoreData _ ht hr]
    · obtain ⟨n, hn⟩ := tryExtractOne_scanStep ht
      have hlt := hn.length_lt hr
      rw [drain, drainLoop_of_progress _ ht hr, drainLoop_of_progress _ ht hr, ih hr hlt, ih hr (by omega)]

theorem drain_eq (h : tryExtractOne s = .next t) :
    drain s = if t.reply = .needMoreData then ([.needMoreData], t) else (t.reply :: (drain t).1, (drain t).2) := by
  obtain ⟨n, hn⟩ := tryExtractOne_scanStep h
  split_ifs with hr
  · exact drainLoop_of_needMoreData _ h hr
  · have hrun : t.session = .running := hn.session_eq.trans (tryExtractOne_next_running h)
    rw [drain, drainLoop_of_progress _ h hr, drainLoop_eq_drain hrun (hn.length_lt hr)]

theorem drain_of_needMoreData (h : tryExtractOne s = .next t) (hr : t.reply = .needMoreData) :
    drain s = ([.needMoreData], t) := by
  rw [drain_eq h, if_pos hr]

theorem drain_of_progress (h : tryExtractOne s = .next t) (hr : t.reply ≠ .needMoreData) :
    drain s = (t.reply :: (drain t).1, (drain t).2) := by
  rw [drain_eq h, if_neg hr]

theorem drain_congr (hrun : s.session = .running) (h : tryExtractOne s = tryExtractOne s') : drain s = drain s' := by
  obtain ⟨t, ht⟩ := tryExtractOne_answers hrun
  rw [drain_eq ht, drain_eq (h.symm.trans ht)]

theorem drain_session (hrun : s.session = .running) : (drain s).2.session = .running := by
  induction s, hrun using drain_induction with
  | call s t hrun hrun' ht ih =>
    by_cases hr : t.reply = .needMoreData
    · rwa [drain_of_needMoreData ht hr]
    · rw [drain_of_progress ht hr]
      exact ih hr

theorem drain_waiting (hrun : s.session = .running) : (drain s).2.Waiting := by
  obtain ⟨rs, -, -, -, hw⟩ := drainEndsWaiting s hrun
  exact hw

theorem drain_of_waiting (hrun : s.session = .running) (hw : s.Waiting) :
    drain s = ([.needMoreData], s.needMoreData) :=
  drain_of_needMoreData (tryExtractOne_of_waiting hrun hw) rfl

/-- Settles O16, by induction on the list of frames: each call delivers the first of them. -/
theorem drainDeliversBackToBackFrames : Obligations.DrainDeliversBackToBackFrames := by
  intro s fs hrun hok hacc
  induction fs generalizing s with
  | nil =>
    have hnil : s.acc = [] := hacc
    rw [drain_of_waiting hrun (.inl hnil), hnil, State.needMoreData, State.answer, hnil]
    rfl
  | cons f fs ih =>
    obtain ⟨hf, hfs⟩ := List.forall_mem_cons.1 hok
    rw [List.flatMap_cons] at hacc
    have hcall := validFrameIsDeliveredAndDropped s f _ hrun hf hacc
    rw [drain_of_progress hcall (by simp), ih]
    · simp [hacc, Nat.add_assoc]
    · exact hrun
    · exact hfs
    · rfl

/-- Settles O18: both events stop the session, and the loop ends there. -/
theorem stopSignalEndsDecoding : Obligations.StopSignalEndsDecoding := by
  intro s ev es hrun hev
  have hstop : stopAndExit s = { s with acc := [], session := .stopped, reply := .silent } := by
    simp [stopAndExit, stop, hrun]
  have hloop : hostLoop (ev :: es) s = ([], stopAndExit s) := by
    rcases hev with rfl | rfl <;> rfl
  rw [hloop, hstop]
  exact ⟨rfl, rfl, rfl, rfl⟩

end Sys2Proof.Machine
end

section
/-! Bytes that come later (R112): they change no call that did not wait, and the drain goes on with them where it waited. -/

namespace Sys2Proof.Machine

variable {s t : State} {o : ByteOrder} {buf : List Byte}

/-- R129: bytes after a decided candidate are not looked at. -/
theorem validate_append (h : validate o buf ≠ .incomplete) (more : List Byte) :
    validate o (buf ++ more) = validate o buf := by
  obtain ⟨hnine, hcut⟩ := not_or.1 (mt validate_eq_incomplete_iff.2 h)
  have hle : buf.length ≤ (buf ++ more).length := by simp
  have hr : rd16 (buf ++ more) 6 = rd16 buf 6 := rd16_append_left more (by omega)
  have hnine' : ¬ (buf ++ more).length < 9 := by omega
  rw [validate_eq, validate_eq, hr, if_neg hnine, if_neg hnine']
  by_cases hlen : 256 ≤ rd16 buf 6
  · rw [if_pos hlen, if_pos hlen]
  · have hend : 9 + rd16 buf 6 ≤ buf.length := by omega
    have hbyte : ∀ i, i < 9 + rd16 buf 6 → byteAt (buf ++ more) i = byteAt buf i :=
      fun i hi => byteAt_append_left more (Nat.lt_of_lt_of_le hi hend)
    rw [if_neg hlen, if_neg hlen, if_neg hend.not_gt, if_neg (hend.trans hle).not_gt, hbyte 0 (by omega),
      hbyte 4 (by omega), hbyte 5 (by omega), hbyte (8 + rd16 buf 6) (by omega), List.take_append_of_le_length hend]

theorem State.append_dropFront {n : Nat} (h : n ≤ s.acc.length) (b : List Byte) :
    (s.append b).dropFront n = (s.dropFront n).append b := by
  simp [State.append, State.dropFront, List.drop_append_of_le_length h]

theorem scanCandidate_append (h : scanCandidate s = .next t) (hr : t.reply ≠ .needMoreData) (b : List Byte) :
    scanCandidate (s.append b) = .next (t.append b) := by
  rcases scanCandidate_verdict h with ⟨-, rfl⟩ | ⟨c, hinv, rfl⟩ | ⟨f, rest, hok, hacc, rfl⟩
  · exact absurd rfl hr
  · have hdecided : validate s.params.cksumOrder s.acc ≠ .incomplete := by simp [hinv]
    have hpos : 1 ≤ s.acc.length := by
      have := mt validate_eq_incomplete_iff.2 hdecided
      omega
    rw [scanCandidate_of_invalid ((validate_append hdecided b).trans hinv), State.resynchronize,
      State.append_dropFront hpos]
    rfl
  · have hmore : (s.append b).acc = f.bytes ++ (rest ++ b) := by simp [hacc]
    rw [scanCandidate_of_frame (s := s.append b) hok hmore, State.append_dropFront (by simp [hacc])]
    rfl

theorem tryExtractOne_append (h : tryExtractOne s = .next t) (hr : t.reply ≠ .needMoreData) (b : List Byte) :
    tryExtractOne (s.append b) = .next (t.append b) := by
  rcases tryExtractOne_cases h with ⟨-, rfl⟩ | ⟨noise, rest, hacc, hn, hscan, -⟩
  · exact absurd rfl hr
  · have hrun : (s.append b).session = .running := tryExtractOne_next_running (s := s) h
    rw [tryExtractOne_of_noise (rest := rest ++ b) hrun hn (by simp [hacc]), State.append_dropFront (by simp [hacc])]
    exact scanCandidate_append hscan hr b

/-- A call that waits has dropped noise and nothing else. -/
theorem tryExtractOne_needMoreData (h : tryExtractOne s = .next t) (hr : t.reply = .needMoreData) :
    ∃ noise rest, s.acc = noise ++ rest ∧ headByte ∉ noise ∧ t = (s.dropFront noise.length).needMoreData := by
  rcases tryExtractOne_cases h with ⟨hno, rfl⟩ | ⟨noise, rest, hacc, hn, hscan, -⟩
  · exact ⟨s.acc, [], (List.append_nil _).symm, hno, rfl⟩
  · rcases scanCandidate_verdict hscan with ⟨-, rfl⟩ | ⟨c, -, rfl⟩ | ⟨f, after, -, -, rfl⟩
    · exact ⟨noise, _, hacc, hn, rfl⟩
    · cases hr
    · cases hr

/-! No call reads the last reply (log entry 2). -/

theorem exec_answer (i : Instr) (s : State) (r : Reply) : exec i (s.answer r) = exec i s := by
  cases i <;> rfl

theorem scanCandidate_answer (s : State) (r : Reply) : scanCandidate (s.answer r) = scanCandidate s := by
  unfold scanCandidate
  rw [State.answer_acc, State.answer_params]
  split
  · rfl
  · rfl
  · next i L _ => exact exec_answer i (s.dropFront L) r

theorem scan_answer (s : State) (r : Reply) : scan (s.answer r) = scan s := by
  have hhead : (s.answer r).findHead = s.findHead := rfl
  rw [scan, scan, hhead]
  cases s.findHead with
  | none => rfl
  | some k => exact scanCandidate_answer (s.dropFront k) r

theorem tryExtractOne_answer (s : State) (r : Reply) : tryExtractOne (s.answer r) = tryExtractOne s := by
  rw [tryExtractOne, tryExtractOne, State.answer_session, scan_answer]
  rfl

/-- Bytes that come after a call that waited are scanned as if they had come before it. -/
theorem tryExtractOne_append_of_needMoreData (h : tryExtractOne s = .next t) (hr : t.reply = .needMoreData)
    (b : List Byte) : tryExtractOne (t.append b) = tryExtractOne (s.append b) := by
  have hrun : (s.append b).session = .running := tryExtractOne_next_running (s := s) h
  obtain ⟨noise, rest, hacc, hn, rfl⟩ := tryExtractOne_needMoreData h hr
  calc tryExtractOne ((s.dropFront noise.length).needMoreData.append b)
    _ = tryExtractOne (((s.dropFront noise.length).append b).answer .needMoreData) := rfl
    _ = tryExtractOne ((s.append b).dropFront noise.length) := by
      rw [tryExtractOne_answer, State.append_dropFront (by simp [hacc])]
    _ = tryExtractOne (s.append b) := tryExtractOne_dropFront_noise (rest := rest ++ b) hrun hn (by simp [hacc])

/-- Draining, then draining with more bytes, is draining all of them at once, but for the `NeedMoreData` between. -/
theorem drain_append (hrun : s.session = .running) (b : List Byte) :
    drain (s.append b)
      = (results (drain s).1 ++ (drain ((drain s).2.append b)).1, (drain ((drain s).2.append b)).2) := by
  induction s, hrun using drain_induction with
  | call s t hrun hrun' ht ih =>
    by_cases hr : t.reply = .needMoreData
    · have hsame := tryExtractOne_append_of_needMoreData ht hr b
      rw [drain_of_needMoreData ht hr, drain_congr (s := s.append b) hrun hsame.symm]
      rfl
    · rw [drain_of_progress ht hr, drain_of_progress (tryExtractOne_append ht hr b) hr, ih hr]
      simp [results, hr]

/-- What R112 speaks of: the results of a run that are not `NeedMoreData`, and the accumulator and the position after it. -/
def observed (run : List Reply × State) : List Reply × List Byte × Nat :=
  (results run.1, run.2.acc, run.2.consumed)

theorem results_append (rs qs : List Reply) : results (rs ++ qs) = results rs ++ results qs :=
  List.filter_append rs qs

theorem results_results (rs : List Reply) : results (results rs) = results rs := by
  simp [results]

theorem feedDrain_eq (hrun : s.session = .running) (b : List Byte) : feedDrain b s = drain (s.append b) := by
  have hfeed : feed b s = .next ((s.append b).answer .silent) := by simp [feed, hrun]
  rw [feedDrain, hfeed]
  exact drain_congr hrun (tryExtractOne_answer (s.append b) .silent)

theorem observed_feedDrainAll (hrun : s.session = .running) (hw : s.Waiting) (bs : List (List Byte)) :
    observed (feedDrainAll bs s) = observed (drain (s.append bs.flatten)) := by
  induction bs generalizing s with
  | nil =>
    have hnil : s.append [].flatten = s := by simp [State.append]
    rw [hnil, drain_of_waiting hrun hw]
    rfl
  | cons b bs ih =>
    have hpiece : (s.append b).session = .running := hrun
    have hall : s.append (b :: bs).flatten = (s.append b).append bs.flatten := by simp [State.append]
    have hrest := ih (drain_session hpiece) (drain_waiting hpiece)
    rw [hall, drain_append hpiece]
    simp only [observed, feedDrainAll, feedDrain_eq hrun, results_append, results_results, Prod.mk.injEq] at hrest ⊢
    exact ⟨congrArg _ hrest.1, hrest.2⟩

/-- Settles O17: each cutting shows what draining the whole sequence at once shows. -/
theorem resultsDoNotDependOnFragmentation : Obligations.ResultsDoNotDependOnFragmentation := by
  intro s xs ys hrun hacc hflat
  have hsame : observed (feedDrainAll xs s) = observed (feedDrainAll ys s) := by
    rw [observed_feedDrainAll hrun (.inl hacc), observed_feedDrainAll hrun (.inl hacc), hflat]
  simpa [observed] using hsame

end Sys2Proof.Machine
end

section
/-! One byte of a valid frame changed (R96 (c), R130): the sum moves by the byte's weight times less than 256, and 65535 does
not divide that. -/

namespace Sys2Proof.Machine

variable {l : List Byte} {i : Nat} {b x : Byte} {o : ByteOrder} {f g : Frame}

/-- What a byte at offset `i` counts for in `wordSum`: the words are big-endian and start at even offsets (R90, R91). -/
def byteWeight (i : Nat) : Nat := if i % 2 = 0 then 256 else 1

@[simp] theorem byteWeight_zero : byteWeight 0 = 256 := rfl

@[simp] theorem byteWeight_one : byteWeight 1 = 1 := rfl

@[simp] theorem byteWeight_add_two (i : Nat) : byteWeight (i + 2) = byteWeight i := by simp [byteWeight]

/-- Setting one byte exchanges its share of the sum. -/
theorem wordSum_set (h : l[i]? = some x) :
    wordSum (l.set i b) + byteWeight i * x.toNat = wordSum l + byteWeight i * b.toNat := by
  induction l using wordSum.induct generalizing i with
  | case1 => simp at h
  | case2 a =>
    match i with
    | 0 =>
      obtain rfl : a = x := by simpa using h
      simp only [List.set_cons_zero, wordSum, byteWeight_zero]
      omega
    | i + 1 => simp at h
  | case3 a a' rest ih =>
    match i with
    | 0 =>
      obtain rfl : a = x := by simpa using h
      simp only [List.set_cons_zero, wordSum, byteWeight_zero]
      omega
    | 1 =>
      obtain rfl : a' = x := by simpa using h
      simp only [List.set_cons_succ, List.set_cons_zero, wordSum, byteWeight_one]
      omega
    | i + 2 =>
      have hrest := ih (i := i) h
      simp only [List.set_cons_succ, wordSum, byteWeight_add_two]
      omega

theorem wordSum_lt_of_length (h : l.length < 65536) : wordSum l < 2 ^ 32 := by
  have := wordSum_le l
  omega

/-- The checksum determines the sum modulo 65535. -/
theorem wordSum_mod_of_compute_eq {l' : List Byte} (hl : l.length < 65536) (hl' : l'.length < 65536)
    (h : compute l = compute l') : wordSum l % 65535 = wordSum l' % 65535 := by
  have hsum := wordSum_lt_of_length hl
  have hsum' := wordSum_lt_of_length hl'
  have hlt := foldCarry_two_lt hsum
  have hlt' := foldCarry_two_lt hsum'
  rw [← BitVec.toNat_inj, compute_toNat hsum, compute_toNat hsum'] at h
  rw [← foldCarry_mod 2, ← foldCarry_mod 2 (wordSum l')]
  omega

/-- R96 (c): the one's-complement checksum sees every change of one byte. -/
theorem compute_set_ne (hl : l.length < 65536) (hx : l[i]? = some x) (hne : b ≠ x) :
    compute (l.set i b) ≠ compute l := by
  intro heq
  have hmod := wordSum_mod_of_compute_eq (by rwa [List.length_set]) hl heq
  have hset := wordSum_set (b := b) hx
  have hbyte : b.toNat ≠ x.toNat := mt BitVec.eq_of_toNat_eq hne
  have := b.isLt
  have := x.isLt
  rw [byteWeight] at hset
  split_ifs at hset <;> omega

/-- The carried checksum of a valid frame does not fit a frame that differs from it in one byte outside the field. -/
theorem validate_eq_cksum_of_set (hok : f.ok o = true) (hcarried : g.carried o = f.carried o)
    (hset : g.neutral.bytes = f.neutral.bytes.set i b) (hx : f.neutral.bytes[i]? = some x) (hne : b ≠ x) :
    validate o g.bytes = .invalid .cksum := by
  obtain ⟨hlen, hsum⟩ := frame_ok_iff.1 hok
  have hlen' : g.len = f.len := by simpa using congrArg List.length hset
  have hchanged : compute g.neutral.bytes ≠ compute f.neutral.bytes :=
    hset ▸ compute_set_ne (by rw [Frame.bytes_length, Frame.neutral_len]; omega) hx hne
  rw [← List.append_nil g.bytes, validate_bytes o g [] (hlen' ▸ hlen), hcarried, ← hsum, if_neg hchanged]

theorem bytes_set_payload (f : Frame) (i : Nat) (b : Byte) (h : i < f.len) :
    ({ f with payload := f.payload.set i b } : Frame).bytes = f.bytes.set (8 + i) b := by
  simp only [Frame.len] at h
  simp [Frame.bytes, Frame.len, Nat.add_comm 8, List.set_append_left _ _ h]

theorem bytes_getElem?_payload (f : Frame) (h : i < f.len) : f.bytes[8 + i]? = f.payload[i]? := by
  simp only [Frame.len] at h
  simp [Frame.bytes, Nat.add_comm 8, List.getElem?_append_left h]

/-- Settles O22: each change sets one byte of the neutralised copy and leaves the carried checksum. -/
theorem singleByteChangeIsRejected : Obligations.SingleByteChangeIsRejected := by
  refine fun o f hok => ⟨fun i b hi hne => ?_, fun b hne => ?_, fun b hne => ?_, fun b hne => ?_⟩
  · have hx : f.payload[i]? = some f.payload[i] := List.getElem?_eq_getElem hi
    exact validate_eq_cksum_of_set hok rfl (bytes_set_payload f.neutral i b hi)
      ((bytes_getElem?_payload f.neutral hi).trans hx) fun h => hne (h ▸ hx)
  · exact validate_eq_cksum_of_set (i := 1) hok rfl rfl rfl hne
  · exact validate_eq_cksum_of_set (i := 2) hok rfl rfl rfl hne
  · exact validate_eq_cksum_of_set (i := 3) hok rfl rfl rfl hne

end Sys2Proof.Machine
end

section
/-! A sender's frame (R62, R75): the field is written so that it is read back, and it is outside the copy that is summed. -/

namespace Sys2Proof.Machine

variable (o : ByteOrder)

theorem carried_withChecksum (c : Word) (f : Frame) : (f.withChecksum o c).carried o = c := by
  have := c.isLt
  apply BitVec.eq_of_toNat_eq
  cases o <;> simp only [Frame.withChecksum, Frame.carried, carriedOf, hiByte, loByte, BitVec.toNat_ofNat] <;> omega

theorem neutral_withChecksum (c : Word) (f : Frame) : (f.withChecksum o c).neutral = f.neutral := by
  cases o <;> rfl

theorem frameOf_len (cmd dir seq : Byte) (payload : List Byte) : (frameOf o cmd dir seq payload).len = payload.length := by
  cases o <;> rfl

theorem frameOf_ok (cmd dir seq : Byte) {payload : List Byte} (h : payload.length < 256) :
    (frameOf o cmd dir seq payload).ok o = true := by
  refine frame_ok_iff.2 ⟨by rwa [frameOf_len], ?_⟩
  rw [frameOf, carried_withChecksum, neutral_withChecksum]
  rfl

/-- Settles O23: `FRAME` meets the frame invariant, and the validator accepts such a frame whatever follows. -/
theorem checksumRoundTrip : Obligations.ChecksumRoundTrip := by
  intro o cmd dir seq payload rest h
  exact validate_eq_valid_iff.2 ⟨frameOf_ok o cmd dir seq h, by rw [frameOf_len], rest, rfl⟩

end Sys2Proof.Machine
end

section
/-! The length guard and the two thresholds (R121 to R123), and the verdicts more bytes cannot change (R129). -/

namespace Sys2Proof.Machine

variable {o : ByteOrder} {buf : List Byte}

/-- A big-endian number is below 256 exactly when its high byte is 0. -/
theorem rd16_lt_256_iff (s : List Byte) (i : Nat) : rd16 s i < 256 ↔ byteAt s i = 0#8 := by
  have := (byteAt s (i + 1)).isLt
  rw [← BitVec.toNat_inj, rd16, BitVec.toNat_zero]
  omega

theorem rd16_of_byteAt_zero {s : List Byte} {i : Nat} (h : byteAt s i = 0#8) : rd16 s i = (byteAt s (i + 1)).toNat := by
  simp [rd16, h]

theorem validate_eq_len_iff (h : 9 ≤ buf.length) : validate o buf = .invalid .len ↔ 256 ≤ rd16 buf 6 := by
  rw [validate_eq, if_neg h.not_gt]
  split_ifs with hlen <;> simp [hlen]

/-- Settles O24: `Invalid(LEN)` is one of the causes for which the scanner drops one byte. -/
theorem lengthGuardNeedsNineBytes : Obligations.LengthGuardNeedsNineBytes := by
  refine ⟨fun o buf h => ⟨validate_eq_len_iff h, ?_⟩, fun s rest hrun hacc h hlen => ?_⟩
  · rw [← not_lt, rd16_lt_256_iff]
  · exact invalidCandidateDropsOneByte s rest .len hrun hacc ((validate_eq_len_iff h).2 hlen)

/-- Settles O25: the length field below 256 is its low byte. -/
theorem incompleteExactlyWhenBytesAreMissing : Obligations.IncompleteExactlyWhenBytesAreMissing := by
  intro o buf
  rw [validate_eq_incomplete_iff, rd16_lt_256_iff]
  exact or_congr_right (and_congr_right fun hzero => by rw [rd16_of_byteAt_zero hzero])

/-- Settles O27: a decided candidate is in hand whole, and the longest frame has 264 bytes. -/
theorem verdictIsPrefixStable : Obligations.VerdictIsPrefixStable :=
  fun _ _ => ⟨validate_append, fun hlong h => (length_lt_of_incomplete h).not_ge hlong⟩

end Sys2Proof.Machine
end

section
/-! What the interpreter delivers (R135, R139): every row replies with one event, and the miss is a row of its own. -/

namespace Sys2Proof.Machine

variable {p : Params}

/-- Settles O33: `deliver` writes the result and nothing else, so this is `exec_select`. -/
theorem executionAgreesWithInterpret : Obligations.ExecutionAgreesWithInterpret :=
  fun f s => exec_select s f

/-- Settles O57: every row ends in `deliver`, which writes the result and nothing else (`exec_eq_deliver`). -/
theorem everyInstructionOnlyReplies : Obligations.EveryInstructionOnlyReplies := exec_eq_deliver

theorem miss_of_rawDump (h : p.filterMiss = .rawDump) (f : Frame) : miss p f = dump f := by rw [miss, h]

theorem miss_of_noOutput (h : p.filterMiss = .noOutput) (f : Frame) : miss p f = none := by rw [miss, h]

theorem exec_filterMiss (f : Frame) (s : State) : exec (.filterMiss f) s = s.deliver (miss s.params f) := rfl

/-- Settles O49: the row delivers `miss`, whose text the parameter decides. -/
theorem filterMissResult : Obligations.FilterMissResult := by
  intro f s
  refine ⟨fun hdump => ?_, fun hnone => ?_, exec_filterMiss f s⟩
  · rw [exec_filterMiss, miss_of_rawDump hdump]
    rfl
  · rw [exec_filterMiss, miss_of_noOutput hnone]
    rfl

end Sys2Proof.Machine
end

section
/-! The raw dump (R138, R181): the bytes it spells, and the length of its text. -/

namespace Sys2Proof.Machine

variable {f : Frame}

theorem hexEach_length (bs : List Byte) : (hexEach bs).length = 3 * bs.length := by
  have hthree : ∀ b : Byte, (space :: hex2 b).length = 3 := fun _ => rfl
  simp only [hexEach, List.length_flatMap, hthree, List.map_const', List.sum_replicate_nat, Nat.mul_comm]

/-- Two digits a byte, and one space fewer than there are bytes. -/
theorem hexsp_length (bs : List Byte) : (hexsp bs).length = 3 * bs.length - 1 := by
  cases bs with
  | nil => rfl
  | cons b bs =>
    have htwo : (hex2 b).length = 2 := rfl
    rw [hexsp, List.length_append, htwo, hexEach_length, List.length_cons]
    omega

/-- Between the two sentinels stand the header fields and the payload; a legal length has the high byte 0 (R61). -/
theorem dump_eq (h : f.len < 256) :
    dump f = some (hexsp (f.command :: f.direction :: f.sequence :: f.check4 :: f.check5
      :: 0x00#8 :: BitVec.ofNat 8 f.payload.length :: f.payload)) := by
  have htake : f.bytes.take (8 + f.len) = [headByte, f.command, f.direction, f.sequence, f.check4, f.check5,
      0x00#8, loByte f.len] ++ f.payload := by
    rw [Frame.bytes, hiByte_of_lt h]
    exact List.take_left' List.length_append
  rw [dump, slice, htake]
  rfl

/-- Settles O51: the row delivers `dump`, seven header bytes and the payload at three characters each but the last. -/
theorem rawDumpResult : Obligations.RawDumpResult := by
  intro f s hlen
  refine ⟨_, congrArg s.deliver (dump_eq hlen), dump_eq hlen, rfl, ?_, select_of_unlisted s.params⟩
  rw [hexsp_length]
  simp only [List.length_cons]
  omega

end Sys2Proof.Machine
end

section
/-! The packed identifier (R140, D13): each byte weighs as two decimal digits, whatever its nibbles. -/

namespace Sys2Proof.Machine

theorem decodeBcdId_four (b0 b1 b2 b3 : Byte) :
    decodeBcdId [b0, b1, b2, b3]
      = hiNibble b0 * 10 ^ 7 + loNibble b0 * 10 ^ 6 + hiNibble b1 * 10 ^ 5 + loNibble b1 * 10 ^ 4
        + hiNibble b2 * 10 ^ 3 + loNibble b2 * 10 ^ 2 + hiNibble b3 * 10 + loNibble b3 := by
  simp only [decodeBcdId, List.foldl_cons, List.foldl_nil]
  ring

/-- Every nibble is at most 15, and 15 times 11111111 is the bound. -/
theorem decodeBcdId_four_le (b0 b1 b2 b3 : Byte) : decodeBcdId [b0, b1, b2, b3] ≤ 166666665 := by
  rw [decodeBcdId_four]
  have := hiNibble_lt b0
  have := loNibble_lt b0
  have := hiNibble_lt b1
  have := loNibble_lt b1
  have := hiNibble_lt b2
  have := loNibble_lt b2
  have := hiNibble_lt b3
  have := loNibble_lt b3
  omega

theorem hiNibble_packed {h l : Nat} (hh : h ≤ 15) (hl : l ≤ 15) : hiNibble (BitVec.ofNat 8 (16 * h + l)) = h := by
  rw [hiNibble, BitVec.toNat_ofNat]
  omega

theorem loNibble_packed {h l : Nat} (hl : l ≤ 15) : loNibble (BitVec.ofNat 8 (16 * h + l)) = l := by
  rw [loNibble, BitVec.toNat_ofNat]
  omega

/-- Settles O55: the formula in the nibbles of the four bytes (`decodeBcdId_four`), which packing keeps. -/
theorem bcdIdentifierValue : Obligations.BcdIdentifierValue := by
  refine ⟨decodeBcdId_four_le, fun d7 d6 d5 d4 d3 d2 d1 d0 h7 h6 h5 h4 h3 h2 h1 h0 => ?_⟩
  rw [decodeBcdId_four, hiNibble_packed h7 h6, hiNibble_packed h5 h4, hiNibble_packed h3 h2, hiNibble_packed h1 h0,
    loNibble_packed h6, loNibble_packed h4, loNibble_packed h2, loNibble_packed h0]

end Sys2Proof.Machine
end

section
/-! A row by its code (R71): every frame that carries the code executes as the row, admitted or not. -/

namespace Sys2Proof.Machine

variable {f : Frame} {r : OpcodeRow}

/-- Selection by the code and dispatch on the code agree, and the row applies its own filters. -/
theorem exec_select_of_code (hr : r ∈ opcodeMap) (hc : f.command = r.code) (s : State) :
    exec (select s.params f) s = exec (r.instr f) s := by
  rw [exec_select, exec_instr_of_code hr hc]

/-- A row whose entry of the opcode map has no filter is selected by its code alone. -/
theorem select_of_unfiltered {code : Byte} {row : Frame → Instr} (hr : ⟨code, .any, .any, row⟩ ∈ opcodeMap)
    (p : Params) (hc : f.command = code) : select p f = row f := by
  rw [select_of_row p hr hc, ownRow_instr_of_mem hr, hc, beq_self_eq_true]
  rfl

/-- The rows to the device with one payload byte (0x02, 0x0B, 0x0C, 0x4D) answer any other frame with the miss. -/
theorem exec_miss_of_not_one_byte {code : Byte} {row : Frame → Instr}
    (hr : ⟨code, .toDevice, .exactly 1, row⟩ ∈ opcodeMap) (s : State)
    (h : f.direction ≠ 0x01#8 ∨ f.payload.length ≠ 1) : exec (row f) s = s.deliver (miss s.params f) := by
  refine exec_instr_of_not_admitted hr s (Bool.and_eq_false_iff.2 ?_)
  exact h.imp beq_false_of_ne beq_false_of_ne

end Sys2Proof.Machine
end

section
/-! Reads of a payload that is given (R66), and the length field's low byte (R61). -/

namespace Sys2Proof

open Machine

variable {f : Frame} {bs : List Byte}

/-- R61: below 256 bytes the length field's low byte is the length. -/
theorem Frame.lenLow_eq (h : f.len < 256) : f.lenLow = f.len := loByte_toNat h

theorem Frame.len_eq (h : f.payload = bs) : f.len = bs.length := congrArg List.length h

theorem Frame.pay_eq (h : f.payload = bs) (i : Nat) : f.pay i = byteAt bs i := congrArg (byteAt · i) h

theorem Frame.payNat_eq (h : f.payload = bs) (i : Nat) : f.payNat i = (byteAt bs i).toNat :=
  congrArg BitVec.toNat (Frame.pay_eq h i)

theorem Frame.paySlice_eq (h : f.payload = bs) (a b : Nat) : f.paySlice a b = slice bs a b := congrArg (slice · a b) h

end Sys2Proof
end

section
/-! Settings and fixed texts (R160, R164 to R166, R169 to R171, R174), and the rows without output (R161, R163, R172, R173). -/

namespace Sys2Proof.Machine

variable {f : Frame} {v : Byte}

/-- The filters of the one-byte rows hold, and the byte is payload byte 0. -/
theorem one_byte_admitted (hdir : f.direction = 0x01#8) (hpay : f.payload = [v]) :
    (f.isToDevice && f.len == 1) = true ∧ f.payNat 0 = v.toNat := by
  refine ⟨?_, Frame.payNat_eq hpay 0⟩
  rw [isToDevice_iff.2 hdir, Frame.len_eq hpay]
  rfl

theorem levelEvent_of_admitted (label : String) (p : Params) (hdir : f.direction = 0x01#8) (hpay : f.payload = [v]) :
    levelEvent label p f = some (ascii label ++ dec v.toNat) := by
  obtain ⟨hadm, hbyte⟩ := one_byte_admitted hdir hpay
  rw [levelEvent, if_pos hadm, hbyte]

/-- Settles O34: the shape of R160 where the filters hold, the miss where they fail, and the code's own row. -/
theorem setRxVolumeResult : Obligations.SetRxVolumeResult := by
  intro f s
  have hrow : ⟨0x02#8, .toDevice, .exactly 1, .setRxVolume⟩ ∈ opcodeMap := by simp [opcodeMap]
  refine ⟨fun v hdir hpay => ?_, exec_miss_of_not_one_byte hrow s, fun hc => exec_select_of_code hrow hc s⟩
  exact congrArg s.deliver (levelEvent_of_admitted _ s.params hdir hpay)

/-- Settles O35: both rows have the shape of R160. -/
theorem micGainAndSquelchResult : Obligations.MicGainAndSquelchResult := fun _ s _ hdir hpay =>
  ⟨congrArg s.deliver (levelEvent_of_admitted _ s.params hdir hpay),
    congrArg s.deliver (levelEvent_of_admitted _ s.params hdir hpay)⟩

theorem powerSaveName_toNat (v : Byte) :
    powerSaveName v.toNat = if v = 0#8 then ascii "Off" else if v = 1#8 then ascii "Level 1"
      else if v = 2#8 then ascii "Level 2" else ascii "Level 3" := by
  simp only [← BitVec.toNat_inj, BitVec.toNat_ofNat]
  unfold powerSaveName
  split
  case h_4 h0 h1 h2 => rw [if_neg h0, if_neg h1, if_neg h2]
  all_goals next hv => rw [hv]; rfl

theorem eventSetPowerSave_of_admitted (p : Params) (hdir : f.direction = 0x01#8) (hpay : f.payload = [v]) :
    eventSetPowerSave p f = some (ascii "Set Power Saving Mode to " ++ powerSaveName v.toNat) := by
  obtain ⟨hadm, hbyte⟩ := one_byte_admitted hdir hpay
  rw [eventSetPowerSave, if_pos hadm, hbyte]

/-- Settles O38: the level's name where the filters hold, the miss where they fail, and the code's own row. -/
theorem powerSaveResult : Obligations.PowerSaveResult := by
  intro f s
  have hrow : ⟨0x0C#8, .toDevice, .exactly 1, .setPowerSave⟩ ∈ opcodeMap := by simp [opcodeMap]
  refine ⟨fun v hdir hpay => ?_, exec_miss_of_not_one_byte hrow s, fun hc => exec_select_of_code hrow hc s⟩
  rw [← powerSaveName_toNat]
  exact congrArg s.deliver (eventSetPowerSave_of_admitted s.params hdir hpay)

/-- Settles O36: the rows deliver no text whatever the frame holds, and their entries of the opcode map have no filter. -/
theorem suppressedRowsGiveNoText : Obligations.SuppressedRowsGiveNoText := by
  intro f s
  refine ⟨rfl, rfl, rfl, rfl, ?_, ?_, ?_, ?_⟩
  all_goals exact select_of_unfiltered (by simp [opcodeMap]) s.params

/-- Settles O37: three rows deliver their text whatever the frame holds; `WAKE_UP` filters on the direction. -/
theorem fixedTextResults : Obligations.FixedTextResults := by
  intro f s
  have hwake : ⟨0x3E#8, .toDevice, .any, .wakeUp⟩ ∈ opcodeMap := by simp [opcodeMap]
  refine ⟨rfl, rfl, rfl, fun hdir => ?_, fun hdir => ?_, select_of_unfiltered (by simp [opcodeMap]) s.params,
    select_of_unfiltered (by simp [opcodeMap]) s.params, select_of_unfiltered (by simp [opcodeMap]) s.params,
    fun hc => exec_select_of_code hwake hc s⟩
  · exact congrArg s.deliver (if_pos (isToDevice_iff.2 hdir))
  · exact congrArg s.deliver (if_neg (mt isToDevice_iff.1 hdir))

end Sys2Proof.Machine
end

section
/-! Calls and identity (R162, R167, R168, R175, R177): payloads given byte by byte. -/

namespace Sys2Proof.Machine

variable {f : Frame}

/-- Settles O39: the length field's low byte tells the start of a call, whose identifiers `CALL06_ORDER` orders. -/
theorem callStateResult : Obligations.CallStateResult := by
  intro f s hdir
  have hup : f.isUpload s.params = true := isUpload_iff.2 hdir
  refine ⟨fun k a0 a1 a2 a3 b0 b1 b2 b3 hpay => congrArg s.deliver ?_, fun hne hlt => congrArg s.deliver ?_⟩
  · have hnine : f.lenLow = 9 := by rw [Frame.lenLow, Frame.len_eq hpay]; rfl
    simp only [eventCallState, if_pos hup, if_pos hnine, callIds, Frame.pay_eq hpay, Frame.paySlice_eq hpay]
    cases s.params.call06Order <;> simp only [List.append_assoc] <;> rfl
  · have hshort : f.lenLow ≠ 9 := by rwa [Frame.lenLow_eq hlt]
    rw [eventCallState, if_pos hup, if_neg hshort]

theorem eventFirmware_of_admitted {p : Params} {b0 b1 b2 b3 : Byte} (hdir : f.direction = p.dirToHost)
    (hpay : f.payload = [b0, b1, b2, b3]) :
    eventFirmware p f = some (ascii "Firmware: " ++ fwHex p b0 ++ ascii "." ++ fwHex p b1 ++ ascii "."
      ++ fwHex p b2 ++ ascii "." ++ fwHex p b3) := by
  have hadm : (f.isToHost p && f.len == 4) = true := by rw [isToHost_iff.2 hdir, Frame.len_eq hpay]; rfl
  simp only [eventFirmware, if_pos hadm, Frame.pay_eq hpay]
  rfl

theorem eventSetLocalId_of_admitted {p : Params} {b0 b1 b2 b3 : Byte} (hdir : f.direction = 0x01#8)
    (hpay : f.payload = [b0, b1, b2, b3]) :
    eventSetLocalId p f = some (ascii "Set Local ID: " ++ hexcat [b3, b2, b1, b0]) := by
  have hadm : (f.isToDevice && f.len == 4) = true := by rw [isToDevice_iff.2 hdir, Frame.len_eq hpay]; rfl
  simp only [eventSetLocalId, if_pos hadm, Frame.pay_eq hpay, List.append_assoc]
  rfl

/-- Settles O40: four payload bytes meet the length filter, and each row spells them in its own order and width. -/
theorem firmwareAndLocalIdResult : Obligations.FirmwareAndLocalIdResult := by
  intro f s b0 b1 b2 b3 hpay
  refine ⟨fun hdir htwo => congrArg s.deliver ?_, fun hdir hmin => congrArg s.deliver ?_,
    fun hdir => congrArg s.deliver (eventSetLocalId_of_admitted hdir hpay)⟩
  · simp only [eventFirmware_of_admitted hdir hpay, fwHex, htwo]
  · simp only [eventFirmware_of_admitted hdir hpay, fwHex, hmin]

/-- Settles O41: byte 0 tells idle from busy; the row delivers an event with an empty payload too (`exec_eq_deliver`). -/
theorem channelStateResult : Obligations.ChannelStateResult := by
  intro f s hdir
  refine ⟨fun v rest hpay => congrArg s.deliver ?_, fun _ => exec_eq_deliver _ s⟩
  have hpos : 1 ≤ f.len := (Frame.len_eq hpay).symm ▸ Nat.le_add_left 1 _
  have hbyte : f.pay 0 = v := Frame.pay_eq hpay 0
  rw [eventChannelState, if_pos (isUpload_iff.2 hdir), if_pos hpos, hbyte]
  by_cases hv : v = 0#8
  · rw [if_neg (not_not.2 hv), if_pos hv]
  · rw [if_pos hv, if_neg hv]

/-- Settles O45: ten payload bytes meet the length filter, and the two identifiers are slices of them. -/
theorem detectedCallResult : Obligations.DetectedCallResult := by
  intro f s k d0 d1 d2 d3 s0 s1 s2 s3 cc hpay
  refine congrArg s.deliver ?_
  have hten : f.len = 10 := Frame.len_eq hpay
  simp only [eventDetectedCall, if_pos hten, Frame.pay_eq hpay, Frame.payNat_eq hpay, Frame.paySlice_eq hpay]
  rfl

end Sys2Proof.Machine
end

section
/-! Reads at an offset, and payloads that repeat an entry of fixed size (R176 encoding 3, R180). -/

namespace Sys2Proof.Machine

theorem slice_add (s : List Byte) (a n : Nat) : slice s a (a + n) = (s.drop a).take n := by
  rw [slice, List.drop_take, Nat.add_sub_cancel_left]

theorem rd16_drop (s : List Byte) (a o : Nat) : rd16 (s.drop a) o = rd16 s (a + o) := by
  simp [rd16, byteAt, Nat.add_assoc]

theorem rd32_eq (s : List Byte) (o : Nat) :
    rd32 s o = (byteAt s o).toNat * 2 ^ 24 + (byteAt s (o + 1)).toNat * 2 ^ 16 + (byteAt s (o + 2)).toNat * 2 ^ 8
      + (byteAt s (o + 3)).toNat := by
  rw [rd32]
  ring

/-- Entries of `m` bytes each: the entry at position `i` starts at offset `m * i`. -/
theorem drop_flatMap_entry {α : Type} {spell : α → List Byte} {m : Nat} (hm : ∀ a, (spell a).length = m)
    (rest : List Byte) (l : List α) (i : Nat) (hi : i < l.length) :
    ∃ after, (l.flatMap spell ++ rest).drop (m * i) = spell l[i] ++ after := by
  induction l generalizing i with
  | nil => exact absurd hi (Nat.not_lt_zero i)
  | cons a l ih =>
    rw [List.flatMap_cons, List.append_assoc]
    cases i with
    | zero => exact ⟨l.flatMap spell ++ rest, rfl⟩
    | succ i =>
      rw [Nat.mul_succ, Nat.add_comm, ← List.drop_drop, List.drop_left' (hm a)]
      exact ih i (Nat.lt_of_succ_lt_succ hi)

/-- Printing the first `n` positions, as many as there are entries, is printing the first `n` entries. -/
theorem flatMap_range_min_length {α : Type} {atPos : Nat → Text} {ofEntry : α → Text} (l : List α) (n : Nat)
    (h : ∀ i (hi : i < l.length), atPos i = ofEntry l[i]) :
    (List.range (min n l.length)).flatMap atPos = (l.take n).flatMap ofEntry := by
  induction l generalizing n atPos with
  | nil => rw [List.length_nil, Nat.min_zero, List.take_nil]; rfl
  | cons a l ih =>
    cases n with
    | zero => rw [Nat.zero_min]; rfl
    | succ n =>
      have htail := ih (atPos := fun i => atPos (i + 1)) n fun i hi => h (i + 1) (Nat.succ_lt_succ hi)
      rw [List.length_cons, Nat.succ_min_succ, List.range_succ_eq_map, List.flatMap_cons, List.flatMap_map, htail,
        h 0 (Nat.zero_lt_succ _)]
      rfl

end Sys2Proof.Machine
end

section
/-! In-band data (R176, D12): the dump, and `talkerAlias` by its encoding byte. -/

namespace Sys2Proof.Machine

variable {f : Frame} {p : Params} {enc count : Byte} {t : List Byte}

/-- Settles O42: 34 payload bytes meet the length filter, and byte 0 other than 2 selects the dump. -/
theorem inBandDumpResult : Obligations.InBandDumpResult := by
  intro f s v rest hpay hlen hv
  refine congrArg s.deliver ?_
  have hlen34 : f.len = 34 := by rw [Frame.len_eq hpay, List.length_cons, hlen]
  have hbyte : f.pay 0 ≠ 2#8 := by rwa [Frame.pay_eq hpay]
  rw [eventInBand, if_pos hlen34, if_neg hbyte, hpay]
  rfl

/-- Byte 0 equal to 2 in a payload of 34 bytes selects `talkerAlias`. -/
theorem eventInBand_alias (p : Params) (hpay : f.payload = 2#8 :: enc :: count :: t) (ht : t.length = 31) :
    eventInBand p f = talkerAlias p f := by
  have hlen34 : f.len = 34 := by simp only [Frame.len_eq hpay, List.length_cons, ht]
  have hbyte : f.pay 0 = 2#8 := Frame.pay_eq hpay 0
  rw [eventInBand, if_pos hlen34, if_pos hbyte]

/-- The cap of 31 is the length of what follows the count, so it takes nothing away. -/
theorem aliasBytes_eq (hpay : f.payload = 2#8 :: enc :: count :: t) (ht : t.length = 31) :
    aliasBytes f = t.take count.toNat := by
  rw [aliasBytes, Frame.payNat_eq hpay, Frame.paySlice_eq hpay, slice_add, ← ht]
  exact List.take_eq_take_min.symm

theorem aliasText_eq {n : Nat} (henc : f.payNat 1 = n) (t : Text) :
    aliasText f t = some (ascii "Talker Alias(" ++ dec n ++ ascii "): " ++ t) := by
  rw [aliasText, henc]

theorem talkerAlias_of_bytes (hpay : f.payload = 2#8 :: enc :: count :: t) (ht : t.length = 31)
    (henc : enc = 0#8 ∨ enc = 2#8) :
    talkerAlias p f = some (ascii "Talker Alias(" ++ dec enc.toNat ++ ascii "): " ++ t.take count.toNat) := by
  have hbyte : f.payNat 1 = enc.toNat := Frame.payNat_eq hpay 1
  rw [talkerAlias, ← aliasText_eq hbyte, ← aliasBytes_eq hpay ht, hbyte]
  rcases henc with rfl | rfl <;> rfl

theorem talkerAlias_of_utf8 (hpay : f.payload = 2#8 :: 1#8 :: count :: t) (ht : t.length = 31) :
    talkerAlias p f
      = some (ascii "Talker Alias(1): " ++ (t.take count.toNat).flatMap (fun b => utf8 b.toNat)) := by
  have hbyte : f.payNat 1 = 1 := Frame.payNat_eq hpay 1
  rw [talkerAlias, aliasBytes_eq hpay ht, hbyte]
  exact aliasText_eq hbyte _

theorem talkerAlias_of_unlisted (hpay : f.payload = 2#8 :: enc :: count :: t) (henc : 4 ≤ enc.toNat) :
    talkerAlias p f = match p.aliasOther with
      | .emptyText => some (ascii "Talker Alias(" ++ dec enc.toNat ++ ascii "): ")
      | .noOutput => none
      | .rawDump => dump f := by
  have hbyte : f.payNat 1 = enc.toNat := Frame.payNat_eq hpay 1
  rw [talkerAlias, aliasText_eq hbyte [], List.append_nil, hbyte]
  split
  case h_5 => rfl
  all_goals omega

/-- Settles O43: byte 0 selects `talkerAlias`, and the encoding byte one of its texts. -/
theorem talkerAliasByteResult : Obligations.TalkerAliasByteResult := by
  intro f s enc count t hpay ht
  have halias := eventInBand_alias s.params hpay ht
  refine ⟨fun henc => congrArg s.deliver ?_, fun henc => congrArg s.deliver ?_, fun henc => congrArg s.deliver ?_⟩
  · exact halias.trans (talkerAlias_of_bytes hpay ht henc)
  · subst henc
    exact halias.trans (talkerAlias_of_utf8 hpay ht)
  · exact halias.trans (talkerAlias_of_unlisted hpay henc)

/-- The two bytes of a UCS-2 unit, most significant first (R176 encoding 3). -/
def unitBytes (u : Byte × Byte) : List Byte := [u.1, u.2]

theorem unitBytes_length (u : Byte × Byte) : (unitBytes u).length = 2 := rfl

/-- Fifteen units stand between the count and the last byte, so the cap of 15 takes nothing away. -/
theorem aliasUcs2_eq {units : List (Byte × Byte)} {last : Byte} (hunits : units.length = 15)
    (hpay : f.payload = 2#8 :: enc :: count :: (units.flatMap unitBytes ++ [last])) :
    aliasUcs2 f = (units.take count.toNat).flatMap (fun u => utf8 (u.1.toNat * 256 + u.2.toNat)) := by
  have hcount : f.payNat 2 = count.toNat := Frame.payNat_eq hpay 2
  rw [aliasUcs2, hcount, ← hunits]
  refine flatMap_range_min_length units count.toNat fun i hi => congrArg utf8 ?_
  obtain ⟨after, hafter⟩ := drop_flatMap_entry unitBytes_length [last] units i hi
  calc rd16 f.payload (3 + 2 * i)
    _ = rd16 ((f.payload.drop 3).drop (2 * i)) 0 := by rw [rd16_drop, rd16_drop, Nat.add_zero]
    _ = rd16 (unitBytes units[i] ++ after) 0 := by rw [← hafter, hpay]; rfl
    _ = units[i].1.toNat * 256 + units[i].2.toNat := rfl

/-- Settles O44: the units are read off the payload, and what follows the count is 31 bytes. -/
theorem talkerAliasUcs2Result : Obligations.TalkerAliasUcs2Result := by
  intro f s count last units hunits hpay
  have hlen : (units.flatMap (fun u => [u.1, u.2]) ++ [last]).length = 31 := by simp [List.length_flatMap, hunits]
  have hbyte : f.payNat 1 = 3 := Frame.payNat_eq hpay 1
  refine congrArg s.deliver ((eventInBand_alias s.params hpay hlen).trans ?_)
  rw [talkerAlias, aliasUcs2_eq hunits hpay, hbyte]
  exact aliasText_eq hbyte _

end Sys2Proof.Machine
end

section
/-! Key, channel and group list (R178 to R180). -/

namespace Sys2Proof.Machine

variable {f : Frame}

/-- The key cut to the bytes present is the key cut to its length. -/
theorem keyBytes_eq {q ty : Byte} {key : List Byte} (hpay : f.payload = q :: ty :: key) (keyLength : Nat) :
    keyBytes f keyLength = key.take keyLength := by
  rw [keyBytes, Frame.paySlice_eq hpay, slice_add, Frame.len_eq hpay]
  exact List.take_eq_take_min.symm

/-- Settles O46: seven payload bytes meet the filters, and the type byte selects the key's length. -/
theorem setKeyResult : Obligations.SetKeyResult := by
  intro f s q ty key hdir hpay hkey spell
  refine congrArg s.deliver ?_
  have hseven : 7 ≤ f.len := by
    rw [Frame.len_eq hpay, List.length_cons, List.length_cons]
    omega
  have hadm : (f.isToDevice && decide (7 ≤ f.len)) = true := by
    rw [isToDevice_iff.2 hdir, decide_eq_true hseven, Bool.and_self]
  have hseq : f.payNat 0 = q.toNat := Frame.payNat_eq hpay 0
  have htype : f.payNat 1 = ty.toNat := Frame.payNat_eq hpay 1
  rw [eventSetKey, if_pos hadm]
  simp only [keyBytes_eq hpay, hseq, htype, ← BitVec.toNat_inj, BitVec.toNat_ofNat]
  split
  case h_5 h0 h1 h4 h5 => rw [if_neg h0, if_neg h1, if_neg h4, if_neg h5]
  all_goals
    next hty =>
      rw [hty]
      simp only [List.append_assoc]
      rfl

/-- Settles O47: the two frequencies are big-endian numbers of four bytes (`rd32_eq`). -/
theorem setChannelResult : Obligations.SetChannelResult := by
  intro f s ts cc b2 r0 r1 r2 r3 t0 t1 t2 t3 rest hdir hpay hrest
  refine congrArg s.deliver ?_
  have htwenty : f.len = 20 := by simp only [Frame.len_eq hpay, List.length_cons, hrest]
  have hadm : (f.isToDevice && f.len == 20) = true := by rw [isToDevice_iff.2 hdir, htwenty]; rfl
  rw [eventSetChannel, if_pos hadm, rd32_eq, rd32_eq, Frame.payNat_eq hpay, Frame.payNat_eq hpay, hpay]
  rfl

/-- The four bytes of a group list's entry (R180). -/
def entryBytes (e : Byte × Byte × Byte × Byte) : List Byte := [e.1, e.2.1, e.2.2.1, e.2.2.2]

theorem entryBytes_length (e : Byte × Byte × Byte × Byte) : (entryBytes e).length = 4 := rfl

section

/-! A payload of a count, whole entries, and the bytes left over. -/

variable {count : Byte} {ids : List (Byte × Byte × Byte × Byte)} {left : List Byte}
  (hpay : f.payload = count :: (ids.flatMap entryBytes ++ left))

include hpay

theorem groupList_len : f.len = 4 * ids.length + left.length + 1 := by
  simp [Frame.len_eq hpay, List.length_flatMap, entryBytes_length, Nat.mul_comm]

/-- Fewer than four bytes are left over, so the count is capped by the number of whole entries. -/
theorem groupCount_eq (hleft : left.length < 4) : groupCount f = min count.toNat ids.length := by
  have hcount : f.payNat 0 = count.toNat := Frame.payNat_eq hpay 0
  rw [groupCount, hcount, groupList_len hpay, Nat.add_sub_cancel]
  omega

/-- Entry `i` stands after the count and `i` whole entries. -/
theorem groupEntry_eq (i : Nat) (hi : i < ids.length) : groupEntry f i = decodeBcdId (entryBytes ids[i]) := by
  obtain ⟨after, hafter⟩ := drop_flatMap_entry entryBytes_length left ids i hi
  have hdrop : f.payload.drop (1 + 4 * i) = entryBytes ids[i] ++ after := by
    rw [← hafter, hpay, Nat.add_comm, List.drop_succ_cons]
  have hend : 5 + 4 * i = 1 + 4 * i + 4 := by omega
  rw [groupEntry, Frame.paySlice, hend, slice_add, hdrop]
  rfl

end

/-- Settles O48: one whole entry makes five payload bytes, and the entries that fit are the ones given. -/
theorem setGroupListResult : Obligations.SetGroupListResult := by
  intro f s hdir
  have hdev : f.isToDevice = true := isToDevice_iff.2 hdir
  refine ⟨fun hshort => congrArg s.deliver ?_, fun count ids left hpay hne hleft => congrArg s.deliver ?_⟩
  · rw [eventSetGroupList, if_pos hdev, if_pos (show f.len < 5 from hshort)]
  · have hfive : ¬ f.len < 5 := by
      have hlen := groupList_len hpay
      have hpos := List.length_pos_iff.2 hne
      omega
    rw [eventSetGroupList, if_pos hdev, if_neg hfive, groupCount_eq hpay hleft]
    refine congrArg (fun entries => some (ascii "Set group list:" ++ entries)) ?_
    refine flatMap_range_min_length ids count.toNat fun i hi => ?_
    rw [groupEntry_eq hpay i hi]
    rfl

end Sys2Proof.Machine
end

section
/-! The order of the last two tests (R199): with a wrong tail the checksum is not looked at. -/

namespace Sys2Proof

open Machine

/-- A frame's bytes with something else in the tail's place, written out. -/
theorem Frame.bytes_dropLast_append (f : Frame) (more : List Byte) :
    f.bytes.dropLast ++ more = headByte :: f.command :: f.direction :: f.sequence :: f.check4 :: f.check5
      :: hiByte f.len :: loByte f.len :: (f.payload ++ more) := by
  rw [Frame.bytes, List.dropLast_concat, List.append_assoc]
  rfl

namespace Machine

variable {o : ByteOrder} {buf : List Byte}

/-- R124: on a complete candidate with its head in place a wrong tail decides. -/
theorem validate_eq_tail_of_complete (hN : rd16 buf 6 < 256) (hL : 9 + rd16 buf 6 ≤ buf.length)
    (hhead : byteAt buf 0 = headByte) (htail : byteAt buf (8 + rd16 buf 6) ≠ tailByte) :
    validate o buf = .invalid .tail := by
  have hnine : ¬ buf.length < 9 := by omega
  rw [validate_eq, if_neg hnine, if_neg hN.not_ge, if_neg hL.not_gt, if_neg (not_not.2 hhead), if_pos htail]

/-- Settles O28: the header, and with it the length, is the frame's, so the byte put in the tail's place is the one tested. -/
theorem tailIsTestedBeforeTheChecksum : Obligations.TailIsTestedBeforeTheChecksum := by
  intro o f b rest hlen hb
  rw [f.bytes_dropLast_append]
  generalize hbuf : headByte :: _ = buf
  have hr : rd16 buf 6 = f.len := by simp [← hbuf, rd16, hiByte_of_lt hlen, loByte_toNat hlen]
  have hcomplete : 9 + f.len ≤ buf.length := by simp [← hbuf, Frame.len]; omega
  have hat : byteAt buf (8 + f.len) = b := by
    rw [← hbuf, Nat.add_comm]
    simp [byteAt, Frame.len]
  rw [← hr] at hlen hcomplete hat
  exact validate_eq_tail_of_complete hlen hcomplete (by rw [← hbuf]; rfl) (by rwa [hat])

end Machine

end Sys2Proof
end

section
/-! The session operations where they are admitted (R220, R100, R222): the whole next state. -/

namespace Sys2Proof.Machine

variable {s : State}

theorem start_of_not_running (h : s.session ≠ .running) :
    start s = .next { s with acc := [], consumed := 0, session := .running, reply := .silent } := by
  cases hs : s.session with
  | running => exact absurd hs h
  | idle | stopped => simp [start, hs]

theorem feed_of_running (h : s.session = .running) (b : List Byte) :
    feed b s = .next ((s.append b).answer .silent) := by
  simp [feed, h]

theorem stop_of_running (h : s.session = .running) :
    stop s = .next { s with acc := [], session := .stopped, reply := .silent } := by
  simp [stop, h]

/-- Settles O2: the host's operation is the session operation itself, so each part is that operation's rule. -/
theorem sessionOperationsAnswerWholeStates : Obligations.SessionOperationsAnswerWholeStates :=
  ⟨fun _ => start_of_not_running, fun _ b h => feed_of_running h b, fun _ => stop_of_running⟩

/-- Settles O1: the values are fields of the whole states that `START` and `STOP` answer, and of the reset state (R32). -/
theorem resetAndSessionValues : Obligations.ResetAndSessionValues :=
  ⟨⟨rfl, rfl, rfl⟩,
    fun _ h => ⟨_, start_of_not_running h, rfl, rfl, rfl⟩,
    fun _ h => ⟨_, stop_of_running h, rfl, rfl, rfl⟩⟩

end Sys2Proof.Machine
end
